-- ==== Sys2Proof/Word.lean ====
section
/-! DEFINITION. The words of the machine (spec/00_scope.md rules R11, R16; spec/30_encoding.md rule R80):
bytes, instruction words, unsigned 64-bit integers, slot indexes, the program counter, and binary64 values
held as their bit patterns. The arithmetic of binary64 is in Machine/Float64.lean. -/

namespace Sys2Proof

/-- A byte of the program store or of a raw buffer (20_memory.md R63). -/
abbrev Byte := BitVec 8

/-- An instruction word (30_encoding.md R80), and the width of a control register (10_state.md R39). -/
abbrev Word := BitVec 32

/-- `u64` of 00_scope.md R16: arithmetic is modulo 2^64. -/
abbrev U64 := BitVec 64

/-- The 24-bit INDEX field: a slot index or a jump target (30_encoding.md R84). -/
abbrev Index := BitVec 24

/-- The rung-relative program counter: "25 bits hold it" (10_state.md R42). -/
abbrev Pc := BitVec 25

/-- `f64` of 00_scope.md R16: an IEEE 754 binary64 value, held as its 64-bit pattern, so that two values
are equal exactly when their patterns are (the `bits(x)` of 40_io_codec.md R110). -/
structure F64 where
  bits : BitVec 64
  deriving DecidableEq, Repr, Inhabited

/-- `+0.0`. -/
def F64.zero : F64 := ⟨0x0000000000000000#64⟩

/-- `1.0`. -/
def F64.one : F64 := ⟨0x3FF0000000000000#64⟩

end Sys2Proof
end

