-- ==== Sys2Proof/Config.lean ====
section
/-! DEFINITION. The configuration record CFG (spec/10_state.md rule R21), fixed at reset and never written
after it, and the free values of the model: constants without a body, of which nothing can be proved. -/

namespace Sys2Proof

/-- The conversion range of an analog slot: "configured [min,max] conversion range" (10_state.md R24, R25). -/
structure Range where
  min : F64
  max : F64
  deriving DecidableEq, Repr, Inhabited

/-- The configuration of an integer memory slot (10_state.md R21, R26): the initial VALUE (`none` when the
configuration gives none, R46), the read-only flag RO and the direction flag DOWN. -/
structure MemCfg where
  value : Option U64
  ro : Bool
  down : Bool
  deriving DecidableEq, Repr, Inhabited

/-- The configuration of a real memory slot (10_state.md R21, R27). -/
structure RealMemCfg where
  value : Option F64
  ro : Bool
  deriving DecidableEq, Repr, Inhabited

/-- The configuration of a timer: scale S, preset P, mode flag ONDELAY (10_state.md R28). -/
structure TimerCfg where
  scale : U64
  preset : U64
  onDelay : Bool
  deriving DecidableEq, Repr, Inhabited

/-- Which functions `analogDecode` and `analogEncode` the configuration gives (00_scope.md R13): the spec's
default pair (40_io_codec.md R105, R109), or another pair, of which nothing is known but that the two are
total functions of their arguments. `other id` names the pair `id`. -/
inductive AnalogMap where
  | linear
  | other (id : Nat)
  deriving DecidableEq, Repr, Inhabited

/-- The configuration record CFG of 10_state.md R21. The slot counts N_AI, N_AO, N_M, N_MR, N_T and N_B are
the lengths of the lists. -/
structure Cfg where
  nDI : Nat
  nDO : Nat
  ai : List Range
  ao : List Range
  m : List MemCfg
  mr : List RealMemCfg
  t : List TimerCfg
  /-- The scale S of each blinker. -/
  b : List U64
  /-- `REAL_EPSILON` (00_scope.md R12). -/
  realEpsilon : F64
  /-- `ANALOG_BITS` (00_scope.md R13). -/
  analogBits : Nat
  /-- `RUNG_STEP_LIMIT` (00_scope.md R14): `none`, or the largest number of instructions of a rung. -/
  rungStepLimit : Option Nat
  /-- `MAX_RUNGS` (00_scope.md R10). -/
  maxRungs : Nat
  analogMap : AnalogMap
  deriving DecidableEq, Repr, Inhabited

/-- Configuration CFG-A of 95_test_vectors.md section 1, the one configuration the spec writes out. It is the
configuration of `State.reset` (DESIGN CHOICE, log entry 1). -/
def Cfg.cfgA : Cfg where
  nDI := 8
  nDO := 8
  ai := [⟨⟨0x0000000000000000#64⟩, ⟨0x40AFFE0000000000#64⟩⟩, ⟨⟨0x0000000000000000#64⟩, ⟨0x40AFFE0000000000#64⟩⟩]
  ao := [⟨⟨0x0000000000000000#64⟩, ⟨0x40AFFE0000000000#64⟩⟩, ⟨⟨0x0000000000000000#64⟩, ⟨0x40AFFE0000000000#64⟩⟩]
  m := [⟨some 0#64, false, false⟩, ⟨some 0#64, false, false⟩, ⟨some 0#64, false, true⟩, ⟨some 100#64, true, false⟩]
  mr := [⟨some F64.zero, false⟩, ⟨some F64.zero, false⟩, ⟨some F64.zero, false⟩,
    ⟨some ⟨0x401E000000000000#64⟩, true⟩]
  t := [⟨1#64, 3#64, true⟩, ⟨2#64, 2#64, true⟩]
  b := [2#64]
  realEpsilon := ⟨0x3E112E0BE826D695#64⟩
  analogBits := 12
  rungStepLimit := none
  maxRungs := 16
  analogMap := .linear

/-- FREE VALUE. `analogDecode` of a configuration that does not give the default (00_scope.md R13): the pair's
name, ANALOG_BITS, the raw sample and the range. -/
opaque Config.analogDecodeOther : Nat → Nat → U64 → Range → F64

/-- FREE VALUE. `analogEncode` of a configuration that does not give the default (00_scope.md R13). -/
opaque Config.analogEncodeOther : Nat → Nat → F64 → Range → U64

/-- The binary64 operations of the default analog functions that can produce a NaN. -/
inductive FloatOp where
  | add
  | mul
  | div
  deriving DecidableEq, Repr, Inhabited

/-- FREE VALUE. The pattern from which the NaN of an invalid binary64 operation is made: IEEE 754 leaves its
sign and payload open, and so does the spec (log entry 6). -/
opaque Config.nanPattern : FloatOp → F64 → F64 → BitVec 64

end Sys2Proof
end

