-- ==== Sys2Proof/Machine/Float64.lean ====
section
/-! DEFINITION. IEEE 754 binary64 on bit patterns, as far as the spec uses it (spec/00_scope.md R11,
spec/40_io_codec.md R105 and R109, spec/41_load.md R121, spec/43_store.md R150 and R151, spec/70_reset_and_hazards.md
R281). A finite value is an integer multiple of 2^-1074, the smallest positive one, so each operation is
computed exactly on naturals or integers and rounded once, to nearest, ties to even. -/

namespace Sys2Proof

/-- How many units of 2^-1074 make 1.0. -/
def F64.unitsPerOne : Nat := 2 ^ 1074

/-- The pattern of +infinity without its sign bit. -/
def F64.infMag : Nat := 0x7FF0000000000000

/-- The sign bit. -/
def F64.neg (x : F64) : Bool := x.bits.getLsbD 63

/-- The 63 bits below the sign bit. -/
def F64.absBits (x : F64) : Nat := x.bits.toNat % 2 ^ 63

/-- A NaN: an exponent of all ones with a nonzero fraction. -/
def F64.isNaN (x : F64) : Bool := decide (F64.infMag < x.absBits)

/-- An infinity. -/
def F64.isInf (x : F64) : Bool := decide (x.absBits = F64.infMag)

/-- Neither a NaN nor an infinity. -/
def F64.isFinite (x : F64) : Bool := decide (x.absBits < F64.infMag)

/-- +0.0 or -0.0. -/
def F64.isZero (x : F64) : Bool := decide (x.absBits = 0)

/-- The magnitude of a finite value in units of 2^-1074. (An infinity gets a number above every finite
magnitude, so that the comparisons below hold for it too.) -/
def F64.mag (x : F64) : Nat :=
  let e := x.absBits / 2 ^ 52
  let f := x.absBits % 2 ^ 52
  if e = 0 then f else (2 ^ 52 + f) * 2 ^ (e - 1)

/-- The value in units of 2^-1074. -/
def F64.units (x : F64) : Int := if x.neg then -(x.mag : Int) else (x.mag : Int)

/-- The value with this sign and these 63 lower bits. -/
def F64.ofParts (neg : Bool) (absBits : Nat) : F64 :=
  ⟨BitVec.ofNat 64 ((if neg then 2 ^ 63 else 0) + absBits)⟩

/-- The infinity of a sign. -/
def F64.inf (neg : Bool) : F64 := F64.ofParts neg F64.infMag

/-- `|x|`: the sign bit cleared. -/
def F64.abs (x : F64) : F64 := F64.ofParts false x.absBits

/-- `-x`: the sign bit inverted. -/
def F64.negate (x : F64) : F64 := F64.ofParts (!x.neg) x.absBits

/-- The quotient `num / den` rounded to the nearest natural, ties to even. -/
def roundHalfEven (num den : Nat) : Nat :=
  let q := num / den
  let r := num % den
  if 2 * r > den ∨ (2 * r = den ∧ q % 2 = 1) then q + 1 else q

/-- The lower 63 bits of the binary64 value nearest to `num / den` units of 2^-1074, ties to even, +infinity on
overflow. With `e` the exponent above the subnormal one, the significand `k` is `num / (den * 2^e)` rounded, and
`e * 2^52 + k` is the pattern: a significand that rounds up to 2^53 carries into the exponent. -/
def F64.roundBits (num den : Nat) : Nat :=
  let q := num / den
  let e := if q < 2 ^ 53 then 0 else q.log2 - 52
  min (e * 2 ^ 52 + roundHalfEven num (den * 2 ^ e)) F64.infMag

/-- The binary64 value of a sign nearest to a magnitude of `num / den` units of 2^-1074. -/
def F64.round (neg : Bool) (num den : Nat) : F64 := F64.ofParts neg (F64.roundBits num den)

/-- The NaN of an invalid operation: a quiet NaN with a free sign and payload (log entry 6). -/
def F64.nanOf (op : FloatOp) (x y : F64) : F64 := ⟨Config.nanPattern op x y ||| 0x7FF8000000000000#64⟩

/-- Addition. An exact zero sum is -0.0 only when both operands have the sign bit. -/
def F64.add (x y : F64) : F64 :=
  if x.isNaN || y.isNaN || (x.isInf && y.isInf && (x.neg != y.neg)) then F64.nanOf .add x y
  else if x.isInf then x
  else if y.isInf then y
  else
    let s := x.units + y.units
    if s = 0 then F64.ofParts (x.neg && y.neg) 0
    else F64.round (decide (s < 0)) s.natAbs 1

/-- Subtraction. -/
def F64.sub (x y : F64) : F64 := F64.add x y.negate

/-- Multiplication. -/
def F64.mul (x y : F64) : F64 :=
  if x.isNaN || y.isNaN || (x.isInf && y.isZero) || (x.isZero && y.isInf) then F64.nanOf .mul x y
  else if x.isInf || y.isInf then F64.inf (x.neg != y.neg)
  else F64.round (x.neg != y.neg) (x.mag * y.mag) F64.unitsPerOne

/-- Division. -/
def F64.div (x y : F64) : F64 :=
  if x.isNaN || y.isNaN || (x.isInf && y.isInf) || (x.isZero && y.isZero) then F64.nanOf .div x y
  else if x.isInf || y.isZero then F64.inf (x.neg != y.neg)
  else if y.isInf then F64.ofParts (x.neg != y.neg) 0
  else F64.round (x.neg != y.neg) (x.mag * F64.unitsPerOne) y.mag

/-- `x < y`: false when one is a NaN; -0.0 equals +0.0. -/
def F64.lt (x y : F64) : Bool := !x.isNaN && !y.isNaN && decide (x.units < y.units)

/-- `x <= y`: false when one is a NaN. -/
def F64.le (x y : F64) : Bool := !x.isNaN && !y.isNaN && decide (x.units ≤ y.units)

/-- The binary64 value nearest to a natural number, ties to even (43_store.md R150). -/
def F64.ofNat (n : Nat) : F64 := F64.round false (n * F64.unitsPerOne) 1

/-- The u64 of a real (43_store.md R151): 0 for a NaN and for values up to 0.0, 2^64 - 1 at or above 2^64, else
the floor. -/
def F64.toU64 (r : F64) : U64 :=
  if r.isNaN || F64.le r F64.zero then 0#64
  else if 2 ^ 64 * F64.unitsPerOne ≤ r.mag then BitVec.ofNat 64 (2 ^ 64 - 1)
  else BitVec.ofNat 64 (r.mag / F64.unitsPerOne)

end Sys2Proof
end

