-- ==== Sys2Proof/Syntax.lean ====
section
/-! DEFINITION. The instruction set PLCEMU-IL as syntax (spec/30_encoding.md): the nine opcodes (R81), the
nine operand kinds (R82), the error kinds (spec/60_exceptions.md R250), and one constructor of `Instr` per row
of spec/opcode_table.json: the 60 valid encodings of R90. An `Instr` holds only pairs (opcode, kind) that R83
admits; every other word has a static verdict in Decode.lean. -/

namespace Sys2Proof

/-- The opcodes of 30_encoding.md R81. -/
inductive Opcode where
  | ld
  | and
  | or
  | andn
  | orn
  | st
  | set
  | rst
  | jmp
  deriving DecidableEq, Repr, Inhabited

/-- The operand kinds of 30_encoding.md R82: the kind `DO` is `dout`. -/
inductive Kind where
  | di
  | re
  | fe
  | dout
  | ai
  | ao
  | m
  | mr
  | t
  deriving DecidableEq, Repr, Inhabited

/-- The closed set of error kinds of 60_exceptions.md R250, in the order of their numbers 1 to 9. -/
inductive ErrorKind where
  /-- ERR_BAD_CHAR: front end only, never raised by the block. -/
  | badChar
  /-- ERR_BAD_FILE: program loader only, never raised by the block. -/
  | badFile
  /-- ERR_BAD_OPERAND: reserved KIND, JMP with KIND nonzero, a write to a read-only slot. -/
  | badOperand
  /-- ERR_BAD_INDEX: a slot index out of range; also an answer to the host. -/
  | badIndex
  /-- ERR_BAD_COIL: ST, SET or RST naming a valid kind it does not admit. -/
  | badCoil
  /-- ERR_BAD_OPERATOR: a reserved opcode. -/
  | badOperator
  /-- ERR_TIMEOUT: command poll only, never raised by the block. -/
  | timeout
  /-- ERR_OVERFLOW: never raised, the block has no stack. -/
  | overflow
  /-- ERR_BAD_PROG: EMPTY accumulator, jump target out of range, step limit. -/
  | badProg
  deriving DecidableEq, Repr, Inhabited

/-- The instructions: one constructor per row of spec/opcode_table.json. The argument is the INDEX field: the
slot index, or the target of JMP (30_encoding.md R84). -/
inductive Instr where
  | ldDi (i : Index)
  | ldRe (i : Index)
  | ldFe (i : Index)
  | ldDo (i : Index)
  | ldAi (i : Index)
  | ldAo (i : Index)
  | ldM (i : Index)
  | ldMr (i : Index)
  | ldT (i : Index)
  | andDi (i : Index)
  | andRe (i : Index)
  | andFe (i : Index)
  | andDo (i : Index)
  | andAi (i : Index)
  | andAo (i : Index)
  | andM (i : Index)
  | andMr (i : Index)
  | andT (i : Index)
  | orDi (i : Index)
  | orRe (i : Index)
  | orFe (i : Index)
  | orDo (i : Index)
  | orAi (i : Index)
  | orAo (i : Index)
  | orM (i : Index)
  | orMr (i : Index)
  | orT (i : Index)
  | andnDi (i : Index)
  | andnRe (i : Index)
  | andnFe (i : Index)
  | andnDo (i : Index)
  | andnAi (i : Index)
  | andnAo (i : Index)
  | andnM (i : Index)
  | andnMr (i : Index)
  | andnT (i : Index)
  | ornDi (i : Index)
  | ornRe (i : Index)
  | ornFe (i : Index)
  | ornDo (i : Index)
  | ornAi (i : Index)
  | ornAo (i : Index)
  | ornM (i : Index)
  | ornMr (i : Index)
  | ornT (i : Index)
  | stDo (i : Index)
  | stAo (i : Index)
  | stM (i : Index)
  | stMr (i : Index)
  | setDo (i : Index)
  | setAo (i : Index)
  | setM (i : Index)
  | setMr (i : Index)
  | setT (i : Index)
  | rstDo (i : Index)
  | rstAo (i : Index)
  | rstM (i : Index)
  | rstMr (i : Index)
  | rstT (i : Index)
  | jmp (t : Index)
  deriving DecidableEq, Repr, Inhabited

/-- The nine LD instructions by kind (30_encoding.md R90). -/
def Instr.ld : Kind → Index → Instr
  | .di, i => .ldDi i
  | .re, i => .ldRe i
  | .fe, i => .ldFe i
  | .dout, i => .ldDo i
  | .ai, i => .ldAi i
  | .ao, i => .ldAo i
  | .m, i => .ldM i
  | .mr, i => .ldMr i
  | .t, i => .ldT i

/-- The nine AND instructions by kind (30_encoding.md R90). -/
def Instr.and : Kind → Index → Instr
  | .di, i => .andDi i
  | .re, i => .andRe i
  | .fe, i => .andFe i
  | .dout, i => .andDo i
  | .ai, i => .andAi i
  | .ao, i => .andAo i
  | .m, i => .andM i
  | .mr, i => .andMr i
  | .t, i => .andT i

/-- The nine OR instructions by kind (30_encoding.md R90). -/
def Instr.or : Kind → Index → Instr
  | .di, i => .orDi i
  | .re, i => .orRe i
  | .fe, i => .orFe i
  | .dout, i => .orDo i
  | .ai, i => .orAi i
  | .ao, i => .orAo i
  | .m, i => .orM i
  | .mr, i => .orMr i
  | .t, i => .orT i

/-- The nine ANDN instructions by kind (30_encoding.md R90). -/
def Instr.andn : Kind → Index → Instr
  | .di, i => .andnDi i
  | .re, i => .andnRe i
  | .fe, i => .andnFe i
  | .dout, i => .andnDo i
  | .ai, i => .andnAi i
  | .ao, i => .andnAo i
  | .m, i => .andnM i
  | .mr, i => .andnMr i
  | .t, i => .andnT i

/-- The nine ORN instructions by kind (30_encoding.md R90). -/
def Instr.orn : Kind → Index → Instr
  | .di, i => .ornDi i
  | .re, i => .ornRe i
  | .fe, i => .ornFe i
  | .dout, i => .ornDo i
  | .ai, i => .ornAi i
  | .ao, i => .ornAo i
  | .m, i => .ornM i
  | .mr, i => .ornMr i
  | .t, i => .ornT i

/-- The ST instructions by kind; `none` for the kinds that raise ERR_BAD_COIL (30_encoding.md R83). -/
def Instr.st : Kind → Index → Option Instr
  | .di, _ => none
  | .re, _ => none
  | .fe, _ => none
  | .dout, i => some (.stDo i)
  | .ai, _ => none
  | .ao, i => some (.stAo i)
  | .m, i => some (.stM i)
  | .mr, i => some (.stMr i)
  | .t, _ => none

/-- The SET instructions by kind; `none` for the kinds that raise ERR_BAD_COIL (30_encoding.md R83). -/
def Instr.set : Kind → Index → Option Instr
  | .di, _ => none
  | .re, _ => none
  | .fe, _ => none
  | .dout, i => some (.setDo i)
  | .ai, _ => none
  | .ao, i => some (.setAo i)
  | .m, i => some (.setM i)
  | .mr, i => some (.setMr i)
  | .t, i => some (.setT i)

/-- The RST instructions by kind; `none` for the kinds that raise ERR_BAD_COIL (30_encoding.md R83). -/
def Instr.rst : Kind → Index → Option Instr
  | .di, _ => none
  | .re, _ => none
  | .fe, _ => none
  | .dout, i => some (.rstDo i)
  | .ai, _ => none
  | .ao, i => some (.rstAo i)
  | .m, i => some (.rstM i)
  | .mr, i => some (.rstMr i)
  | .t, i => some (.rstT i)

/-- The operand kind of an instruction's slot; `none` for JMP, which names no slot (30_encoding.md R83). -/
def Instr.slotKind : Instr → Option Kind
  | .ldDi _ => some .di
  | .ldRe _ => some .re
  | .ldFe _ => some .fe
  | .ldDo _ => some .dout
  | .ldAi _ => some .ai
  | .ldAo _ => some .ao
  | .ldM _ => some .m
  | .ldMr _ => some .mr
  | .ldT _ => some .t
  | .andDi _ => some .di
  | .andRe _ => some .re
  | .andFe _ => some .fe
  | .andDo _ => some .dout
  | .andAi _ => some .ai
  | .andAo _ => some .ao
  | .andM _ => some .m
  | .andMr _ => some .mr
  | .andT _ => some .t
  | .orDi _ => some .di
  | .orRe _ => some .re
  | .orFe _ => some .fe
  | .orDo _ => some .dout
  | .orAi _ => some .ai
  | .orAo _ => some .ao
  | .orM _ => some .m
  | .orMr _ => some .mr
  | .orT _ => some .t
  | .andnDi _ => some .di
  | .andnRe _ => some .re
  | .andnFe _ => some .fe
  | .andnDo _ => some .dout
  | .andnAi _ => some .ai
  | .andnAo _ => some .ao
  | .andnM _ => some .m
  | .andnMr _ => some .mr
  | .andnT _ => some .t
  | .ornDi _ => some .di
  | .ornRe _ => some .re
  | .ornFe _ => some .fe
  | .ornDo _ => some .dout
  | .ornAi _ => some .ai
  | .ornAo _ => some .ao
  | .ornM _ => some .m
  | .ornMr _ => some .mr
  | .ornT _ => some .t
  | .stDo _ => some .dout
  | .stAo _ => some .ao
  | .stM _ => some .m
  | .stMr _ => some .mr
  | .setDo _ => some .dout
  | .setAo _ => some .ao
  | .setM _ => some .m
  | .setMr _ => some .mr
  | .setT _ => some .t
  | .rstDo _ => some .dout
  | .rstAo _ => some .ao
  | .rstM _ => some .m
  | .rstMr _ => some .mr
  | .rstT _ => some .t
  | .jmp _ => none

/-- The INDEX field of an instruction: its slot index or its target (30_encoding.md R84). -/
def Instr.index : Instr → Index
  | .ldDi i => i
  | .ldRe i => i
  | .ldFe i => i
  | .ldDo i => i
  | .ldAi i => i
  | .ldAo i => i
  | .ldM i => i
  | .ldMr i => i
  | .ldT i => i
  | .andDi i => i
  | .andRe i => i
  | .andFe i => i
  | .andDo i => i
  | .andAi i => i
  | .andAo i => i
  | .andM i => i
  | .andMr i => i
  | .andT i => i
  | .orDi i => i
  | .orRe i => i
  | .orFe i => i
  | .orDo i => i
  | .orAi i => i
  | .orAo i => i
  | .orM i => i
  | .orMr i => i
  | .orT i => i
  | .andnDi i => i
  | .andnRe i => i
  | .andnFe i => i
  | .andnDo i => i
  | .andnAi i => i
  | .andnAo i => i
  | .andnM i => i
  | .andnMr i => i
  | .andnT i => i
  | .ornDi i => i
  | .ornRe i => i
  | .ornFe i => i
  | .ornDo i => i
  | .ornAi i => i
  | .ornAo i => i
  | .ornM i => i
  | .ornMr i => i
  | .ornT i => i
  | .stDo i => i
  | .stAo i => i
  | .stM i => i
  | .stMr i => i
  | .setDo i => i
  | .setAo i => i
  | .setM i => i
  | .setMr i => i
  | .setT i => i
  | .rstDo i => i
  | .rstAo i => i
  | .rstM i => i
  | .rstMr i => i
  | .rstT i => i
  | .jmp i => i

end Sys2Proof
end

