-- ==== Sys2Proof/WellFormed.lean ====
section
/-! DEFINITION. What a loader can check of one instruction against the slot counts and the length of its rung
(spec/60_exceptions.md R251 steps 4 and 4J): the slot it names exists, or its target is an instruction of the
rung. The form of an instruction needs no check: `Instr` holds only admitted pairs of opcode and kind, and an
`Index` is 24 bits. The machine does not require well-formedness: it runs every instruction and raises the
error the spec names (R88). The checks of a whole configuration and program are in Machine/Boot.lean (R281). -/

namespace Sys2Proof

/-- The instruction names an existing slot of its kind (`i < count(K)`, 60_exceptions.md R254), or, for JMP,
an instruction of its rung (`t < LEN[RI]`, 45_jump.md R180). -/
def Instr.WellFormed (count : Kind → Nat) (len : Nat) (i : Instr) : Bool :=
  match i.slotKind with
  | some k => decide (i.index.toNat < count k)
  | none => decide (i.index.toNat < len)

end Sys2Proof
end

