-- ==== Sys2Proof/Decode.lean ====
section
/-! DEFINITION. The decoder of spec/30_encoding.md, total on any bytes, and after it the encoder, written from
the list of encodings of R90. A word that is no instruction carries one of the static verdicts of R88, by name. -/

namespace Sys2Proof

/-- The opcode that the OP field names; `none` for the reserved values 0x9 to 0xF (30_encoding.md R81, R86). -/
def opcodeOf (op : BitVec 4) : Option Opcode :=
  match op.toNat with
  | 0 => some .ld
  | 1 => some .and
  | 2 => some .or
  | 3 => some .andn
  | 4 => some .orn
  | 5 => some .st
  | 6 => some .set
  | 7 => some .rst
  | 8 => some .jmp
  | _ => none

/-- The operand kind that the KIND field names; `none` for the reserved values 0x9 to 0xF (30_encoding.md R82,
R87). -/
def kindOf (kind : BitVec 4) : Option Kind :=
  match kind.toNat with
  | 0 => some .di
  | 1 => some .re
  | 2 => some .fe
  | 3 => some .dout
  | 4 => some .ai
  | 5 => some .ao
  | 6 => some .m
  | 7 => some .mr
  | 8 => some .t
  | _ => none

/-- The OP field, bits 31:28 (30_encoding.md R80). -/
def opField (w : Word) : BitVec 4 := w.extractLsb' 28 4

/-- The KIND field, bits 27:24 (30_encoding.md R80). -/
def kindField (w : Word) : BitVec 4 := w.extractLsb' 24 4

/-- The INDEX field, bits 23:0 (30_encoding.md R80, R84). -/
def indexField (w : Word) : Index := w.extractLsb' 0 24

/-- An instruction, or ERR_BAD_COIL where the opcode does not admit the kind (30_encoding.md R83). -/
def orBadCoil : Option Instr → Except ErrorKind Instr
  | some i => .ok i
  | none => .error .badCoil

/-- The KIND check of every opcode but JMP: ERR_BAD_OPERAND for a reserved kind (30_encoding.md R87), else the
verdict `f` gives the kind. -/
def withKind (w : Word) (f : Kind → Except ErrorKind Instr) : Except ErrorKind Instr :=
  match kindOf (kindField w) with
  | some k => f k
  | none => .error .badOperand

/-- Decoding of a word: the instruction, or the static verdict in the order of 60_exceptions.md R251 (steps 1,
2, 2J, 3): ERR_BAD_OPERATOR, ERR_BAD_OPERAND, ERR_BAD_COIL (30_encoding.md R88). -/
def decodeWord (w : Word) : Except ErrorKind Instr :=
  match opcodeOf (opField w) with
  | none => .error .badOperator
  | some .ld => withKind w fun k => .ok (Instr.ld k (indexField w))
  | some .and => withKind w fun k => .ok (Instr.and k (indexField w))
  | some .or => withKind w fun k => .ok (Instr.or k (indexField w))
  | some .andn => withKind w fun k => .ok (Instr.andn k (indexField w))
  | some .orn => withKind w fun k => .ok (Instr.orn k (indexField w))
  | some .st => withKind w fun k => orBadCoil (Instr.st k (indexField w))
  | some .set => withKind w fun k => orBadCoil (Instr.set k (indexField w))
  | some .rst => withKind w fun k => orBadCoil (Instr.rst k (indexField w))
  | some .jmp => if kindField w = 0#4 then .ok (.jmp (indexField w)) else .error .badOperand

/-- Why a list of bytes gives no instruction. -/
inductive DecodeReject where
  /-- Fewer than the four bytes of one word (30_encoding.md R89). -/
  | truncated
  /-- A word with a static verdict (30_encoding.md R88). -/
  | verdict (e : ErrorKind)
  deriving DecidableEq, Repr, Inhabited

/-- The word in four bytes, the most significant byte at the lowest address (20_memory.md R62, R63). -/
def wordOfBytes (b0 b1 b2 b3 : Byte) : Word := b0 ++ b1 ++ b2 ++ b3

/-- Decoding of bytes: one word, and the bytes after it (30_encoding.md R89: every instruction is one word). -/
def decodeBytes : List Byte → Except DecodeReject (Instr × List Byte)
  | b0 :: b1 :: b2 :: b3 :: rest =>
    match decodeWord (wordOfBytes b0 b1 b2 b3) with
    | .ok i => .ok (i, rest)
    | .error e => .error (.verdict e)
  | _ => .error .truncated

/-- The four bytes of a word, in the order they are stored (20_memory.md R62, R63). -/
def bytesOfWord (w : Word) : List Byte :=
  [w.extractLsb' 24 8, w.extractLsb' 16 8, w.extractLsb' 8 8, w.extractLsb' 0 8]

/-- The instruction the decoder reads from an instruction whose lowest `nbits` bits are those of `w` and whose
other bits are 0, its word laid out in big-endian bytes. -/
def decodeTableWord (nbits w : Nat) : Option Instr :=
  match decodeBytes (bytesOfWord (BitVec.ofNat 32 (w % 2 ^ nbits))) with
  | .ok (i, _) => some i
  | .error _ => none

/-- The word of an instruction, from the list of encodings of 30_encoding.md R90: `0xAB iiiiii`. -/
def encode : Instr → Word
  | .ldDi i => 0x00#8 ++ i
  | .ldRe i => 0x01#8 ++ i
  | .ldFe i => 0x02#8 ++ i
  | .ldDo i => 0x03#8 ++ i
  | .ldAi i => 0x04#8 ++ i
  | .ldAo i => 0x05#8 ++ i
  | .ldM i => 0x06#8 ++ i
  | .ldMr i => 0x07#8 ++ i
  | .ldT i => 0x08#8 ++ i
  | .andDi i => 0x10#8 ++ i
  | .andRe i => 0x11#8 ++ i
  | .andFe i => 0x12#8 ++ i
  | .andDo i => 0x13#8 ++ i
  | .andAi i => 0x14#8 ++ i
  | .andAo i => 0x15#8 ++ i
  | .andM i => 0x16#8 ++ i
  | .andMr i => 0x17#8 ++ i
  | .andT i => 0x18#8 ++ i
  | .orDi i => 0x20#8 ++ i
  | .orRe i => 0x21#8 ++ i
  | .orFe i => 0x22#8 ++ i
  | .orDo i => 0x23#8 ++ i
  | .orAi i => 0x24#8 ++ i
  | .orAo i => 0x25#8 ++ i
  | .orM i => 0x26#8 ++ i
  | .orMr i => 0x27#8 ++ i
  | .orT i => 0x28#8 ++ i
  | .andnDi i => 0x30#8 ++ i
  | .andnRe i => 0x31#8 ++ i
  | .andnFe i => 0x32#8 ++ i
  | .andnDo i => 0x33#8 ++ i
  | .andnAi i => 0x34#8 ++ i
  | .andnAo i => 0x35#8 ++ i
  | .andnM i => 0x36#8 ++ i
  | .andnMr i => 0x37#8 ++ i
  | .andnT i => 0x38#8 ++ i
  | .ornDi i => 0x40#8 ++ i
  | .ornRe i => 0x41#8 ++ i
  | .ornFe i => 0x42#8 ++ i
  | .ornDo i => 0x43#8 ++ i
  | .ornAi i => 0x44#8 ++ i
  | .ornAo i => 0x45#8 ++ i
  | .ornM i => 0x46#8 ++ i
  | .ornMr i => 0x47#8 ++ i
  | .ornT i => 0x48#8 ++ i
  | .stDo i => 0x53#8 ++ i
  | .stAo i => 0x55#8 ++ i
  | .stM i => 0x56#8 ++ i
  | .stMr i => 0x57#8 ++ i
  | .setDo i => 0x63#8 ++ i
  | .setAo i => 0x65#8 ++ i
  | .setM i => 0x66#8 ++ i
  | .setMr i => 0x67#8 ++ i
  | .setT i => 0x68#8 ++ i
  | .rstDo i => 0x73#8 ++ i
  | .rstAo i => 0x75#8 ++ i
  | .rstM i => 0x76#8 ++ i
  | .rstMr i => 0x77#8 ++ i
  | .rstT i => 0x78#8 ++ i
  | .jmp i => 0x80#8 ++ i

end Sys2Proof
end

