-- ==== Sys2Proof/Machine/State.lean ====
section
/-! DEFINITION. The state of the machine, as plain data: every register of spec/10_state.md, the program store
and the raw buffers of spec/20_memory.md, and the model's own fields (the phase of the scan, the scans the host
has still to start, the answers of the last host phase). -/

namespace Sys2Proof.Machine

open Sys2Proof

/-- Byte memory (the program store, a raw buffer) as (address, byte) pairs in ONE canonical form: addresses
strictly rising, no listed byte equal to 0, which is what an unlisted address reads as. -/
abbrev Memory := List Host.Cell

/-- A digital input slot (10_state.md R22): `I`, `RE`, `FE`. -/
structure DiSlot where
  i : Bool := false
  re : Bool := false
  fe : Bool := false
  deriving DecidableEq, Repr, Inhabited

/-- A digital output slot (10_state.md R23): `Q`, `SETF`, `RESETF`. -/
structure DoSlot where
  q : Bool := false
  setf : Bool := false
  resetf : Bool := false
  deriving DecidableEq, Repr, Inhabited

/-- An integer memory slot, a counter (10_state.md R26): `V`, `PULSE`, `EDGE`, `SETF`, `RESETF`. -/
structure MemSlot where
  v : U64 := 0#64
  pulse : Bool := false
  edge : Bool := false
  setf : Bool := false
  resetf : Bool := false
  deriving DecidableEq, Repr, Inhabited

/-- A timer slot (10_state.md R28): `C`, `V`, `Q`, `START`. -/
structure TimerSlot where
  c : U64 := 0#64
  v : U64 := 0#64
  q : Bool := false
  start : Bool := false
  deriving DecidableEq, Repr, Inhabited

/-- A blinker slot (10_state.md R29): `C`, `Q`. -/
structure BlinkerSlot where
  c : U64 := 0#64
  q : Bool := false
  deriving DecidableEq, Repr, Inhabited

/-- The register bank (10_state.md R20), without the configuration fields of R33, which are in `State.cfg`. -/
structure Bank where
  di : List DiSlot
  dout : List DoSlot
  /-- `AI[i].VAL`. -/
  ai : List F64
  /-- `AO[i].VAL`. -/
  ao : List F64
  m : List MemSlot
  /-- `MR[i].VAL`. -/
  mr : List F64
  t : List TimerSlot
  b : List BlinkerSlot
  deriving DecidableEq, Repr, Inhabited

/-- The forcing registers of a digital channel (10_state.md R30): mask bit and value bit. -/
structure BitForce where
  mask : Bool := false
  value : Bool := false
  deriving DecidableEq, Repr, Inhabited

/-- The forcing registers of an analog channel (10_state.md R31): enable bit and value. -/
structure RealForce where
  on : Bool := false
  value : F64 := F64.zero
  deriving DecidableEq, Repr, Inhabited

/-- The forcing registers: `FMI/FVI`, `FMO/FVO`, `FAI/FVAI`, `FAO/FVAO` (10_state.md R30, R31). -/
structure Forcing where
  di : List BitForce
  dout : List BitForce
  ai : List RealForce
  ao : List RealForce
  deriving DecidableEq, Repr, Inhabited

/-- `STATE` of the controller (10_state.md R35). The encoding 11 of STATUS is no constructor: it is never
produced (R39). -/
inductive RunState where
  | stopped
  | running
  | terminated
  deriving DecidableEq, Repr, Inhabited

/-- The controller registers (10_state.md R35 to R38). `err = none` is `ERR = 0`. -/
structure Controller where
  state : RunState
  shutdownReq : Bool
  err : Option ErrorKind
  errRung : Word
  errPc : Word
  errWord : Word
  delta : BitVec 5
  deriving DecidableEq, Repr, Inhabited

/-- The previous-scan snapshot (10_state.md R34). -/
structure Prev where
  bank : Bank
  state : RunState
  err : Option ErrorKind
  deriving DecidableEq, Repr, Inhabited

/-- A tagged value (10_state.md R40): BOOL, INT or REAL. -/
inductive Value where
  | bool (b : Bool)
  | int (v : U64)
  | real (r : F64)
  deriving DecidableEq, Repr, Inhabited

/-- The accumulator (10_state.md R40): EMPTY, or a tagged value. -/
inductive Acc where
  | empty
  | val (v : Value)
  deriving DecidableEq, Repr, Inhabited

/-- The engine registers (10_state.md R40 to R43). -/
structure Engine where
  acc : Acc
  ri : Nat
  pc : Pc
  steps : Nat
  deriving DecidableEq, Repr, Inhabited

/-- An entry of the rung table: `BASE[r]` and `LEN[r]`, in words (20_memory.md R60). -/
structure Rung where
  base : Nat
  len : Nat
  deriving DecidableEq, Repr, Inhabited

/-- The program store (20_memory.md R60): `IMEM`, held as bytes (R62), its size in words, and the rung table.
It is written at reset only (R61). -/
structure Program where
  imem : Memory
  words : Nat
  rungs : List Rung
  deriving DecidableEq, Repr, Inhabited

/-- The program with no rung. -/
def Program.empty : Program := ⟨[], 0, []⟩

/-- The host operations of 47_rung_and_scan.md R233. -/
inductive HostOp where
  | start
  | stop
  | shutdown
  | forceDI (i : Nat) (b : Bool)
  | unforceDI (i : Nat)
  | forceDO (i : Nat) (b : Bool)
  | unforceDO (i : Nat)
  | forceAI (i : Nat) (r : F64)
  | unforceAI (i : Nat)
  | forceAO (i : Nat) (r : F64)
  | unforceAO (i : Nat)
  | isInputForced (i : Nat)
  | isOutputForced (i : Nat)
  | isAIForced (i : Nat)
  | isAOForced (i : Nat)
  | readSnapshot
  | readCsr (n : Nat)
  deriving DecidableEq, Repr, Inhabited

/-- What the host gives one scan (47_rung_and_scan.md R232): the raw input buffers read at phase 1, and the
host operations it issues at phase 5, in order (R234). A byte a buffer does not list is 0. -/
structure ScanInput where
  rawDI : Memory
  rawAI : Memory
  ops : List HostOp
  deriving DecidableEq, Repr, Inhabited

/-- The register snapshot of 40_io_codec.md R112: the register bank with its configuration fields, the forcing
registers, and the control registers of 10_state.md R39. -/
structure Snapshot where
  bank : Bank
  aiRange : List Range
  aoRange : List Range
  /-- `RO` and `DOWN` of each integer memory slot. -/
  mFlags : List (Bool × Bool)
  /-- `RO` of each real memory slot. -/
  mrRo : List Bool
  tCfg : List TimerCfg
  bScale : List U64
  force : Forcing
  status : Word
  errRung : Word
  errPc : Word
  errWord : Word
  delta : Word
  deriving DecidableEq, Repr, Inhabited

/-- The answers to host operations (47_rung_and_scan.md R233). -/
inductive Answer where
  | ok
  /-- ERR_BAD_INDEX, to the host only (60_exceptions.md R261). -/
  | badIndex
  /-- A mask bit. -/
  | bit (b : Bool)
  /-- A control register. -/
  | csr (v : Word)
  | snapshot (s : Snapshot)
  deriving DecidableEq, Repr, Inhabited

/-- Where the scan engine stands in the scan (47_rung_and_scan.md R220). The MODEL's own field: one step of the
model is one phase, or one instruction of the execute phase. -/
inductive Phase where
  /-- Phase 0, between two scans. -/
  | boundary
  /-- Phase 1. -/
  | decode
  /-- Phase 2, at the head of the loop over the rungs, before rung `RI`. -/
  | execute
  /-- Phase 2, inside rung `RI`, before the fetch at `PC`. -/
  | rung
  /-- Phase 2b. -/
  | tick
  /-- Phase 3. -/
  | encode
  /-- Phase 4. -/
  | delta
  /-- Phase 5. -/
  | host
  deriving DecidableEq, Repr, Inhabited

/-- The whole state. -/
structure State where
  /-- The configuration record, fixed at reset (10_state.md R21, R33). -/
  cfg : Cfg
  /-- The program store, fixed at reset (20_memory.md R60, R61). -/
  prog : Program
  bank : Bank
  force : Forcing
  prev : Prev
  ctl : Controller
  eng : Engine
  /-- The raw input buffers of the scan in progress (20_memory.md R65). -/
  rawDI : Memory
  rawAI : Memory
  /-- The raw output buffers (20_memory.md R66). -/
  rawDO : Memory
  rawAO : Memory
  /-- MODEL's own: where the scan stands. -/
  phase : Phase
  /-- MODEL's own: the host operations of phase 5 of the scan in progress. -/
  hostOps : List HostOp
  /-- MODEL's own: the answers given at the last phase 5, in order. -/
  answers : List Answer
  /-- MODEL's own: what the host gives the scans it has still to start, the next scan first. -/
  pending : List ScanInput
  deriving DecidableEq, Repr

/-- The register bank at reset (10_state.md R46). -/
def Bank.reset (c : Cfg) : Bank where
  di := List.replicate c.nDI default
  dout := List.replicate c.nDO default
  ai := c.ai.map fun _ => F64.zero
  ao := c.ao.map fun _ => F64.zero
  m := c.m.map fun x => ⟨x.value.getD 0#64, false, false, false, false⟩
  mr := c.mr.map fun x => x.value.getD F64.zero
  t := c.t.map fun _ => default
  b := c.b.map fun _ => default

/-- The forcing registers at reset: nothing is forced (10_state.md R47). -/
def Forcing.reset (c : Cfg) : Forcing where
  di := List.replicate c.nDI ⟨false, false⟩
  dout := List.replicate c.nDO ⟨false, false⟩
  ai := c.ai.map fun _ => ⟨false, F64.zero⟩
  ao := c.ao.map fun _ => ⟨false, F64.zero⟩

/-- The controller registers at reset (10_state.md R49). -/
def Controller.reset : Controller := ⟨.stopped, false, none, 0#32, 0#32, 0#32, 0#5⟩

/-- The machine right after a reset with a configuration and a program that reset accepts
(70_reset_and_hazards.md R280 steps 2 to 8; the checks of step 1 are in Machine/Boot.lean). -/
def State.ofConfig (c : Cfg) (p : Program) : State where
  cfg := c
  prog := p
  bank := Bank.reset c
  force := Forcing.reset c
  prev := ⟨Bank.reset c, .stopped, none⟩
  ctl := Controller.reset
  eng := ⟨.empty, 0, 0#25, 0⟩
  rawDI := []
  rawAI := []
  rawDO := []
  rawAO := []
  phase := .boundary
  hostOps := []
  answers := []
  pending := []

/-- The machine right after reset, with the spec's configuration CFG-A and no program. The spec gives reset a
configuration and a program as arguments; that this constant uses CFG-A and the empty program is the model's
choice (DESIGN CHOICE, log entry 1). -/
def State.reset : State := State.ofConfig Cfg.cfgA Program.empty

/-- The reasons a run has no next state. Each is raised by `step` only, never by an instruction, and each is
safe: the model stops and states nothing about a later state. -/
inductive Fault where
  /-- `STATE` is TERMINATED at phase 0: "no scan happens (the run has ended)" (47_rung_and_scan.md R220; stuck
  in 93_implementation_defined.md, point 24). Raised by `stepBoundary`. Safe. -/
  | runEnded
  /-- `RI` names no rung inside the execute phase. No state that a run reaches does so (10_state.md R41).
  Raised by `fetch`. Safe. -/
  | noSuchRung
  /-- The fetch names a word outside the program store. No state that a run reaches does so: "Fetch never fails"
  (47_rung_and_scan.md R211). Raised by `fetch`. Safe. -/
  | fetchOutsideStore
  deriving DecidableEq, Repr, Inhabited

/-- The checks of reset that a configuration or a program can fail (70_reset_and_hazards.md R281). -/
inductive ConfigFlaw where
  /-- A slot count above 2^24. -/
  | slotCount
  /-- MAX_RUNGS above 2^24, more rungs than MAX_RUNGS, a rung longer than 2^24, or a rung outside the store. -/
  | programSize
  /-- A timer or blinker with `S == 0`. -/
  | zeroScale
  /-- An off-delay timer (46_sequencer.md R195). -/
  | offDelay
  /-- An analog slot without `MIN < MAX`, or whose span is not finite. -/
  | analogRange
  /-- ANALOG_BITS, REAL_EPSILON or RUNG_STEP_LIMIT outside its values. -/
  | parameter
  deriving DecidableEq, Repr, Inhabited

/-- The reasons the model gives no meaning. -/
inductive Refusal where
  /-- An instruction without a meaning. No arm of `exec` answers it: every instruction has its meaning. Safe. -/
  | notModelled (mnemonic : String)
  /-- Reset refuses the configuration or the program (70_reset_and_hazards.md R281): no block, no scan. Raised
  by `boot`. Safe. -/
  | badConfig (flaw : ConfigFlaw)
  /-- The tick would step an off-delay timer, whose rule the source leaves open (46_sequencer.md R195). Reset
  refuses such a configuration, so no run reaches it. Raised by `tickPhase`. Safe. -/
  | offDelayTimer
  deriving DecidableEq, Repr, Inhabited

end Sys2Proof.Machine
end

