-- ==== Sys2Proof/Machine/Ops.lean ====
section
/-! DEFINITION. The named operations over memory and registers: byte memory (spec/20_memory.md R63), the slots
of the register bank, the engine registers, and the abort of a rung, which is the one way an error is taken
(spec/60_exceptions.md R255), with START, the one way back from it, beside it (R258). -/

namespace Sys2Proof.Machine

open Sys2Proof

/-! ### Byte memory -/

/-- The byte at an address; an unlisted address reads as 0. -/
def Memory.read : Memory → Nat → Byte
  | [], _ => 0#8
  | (b, x) :: m, a => if a = b then x else Memory.read m a

/-- The entry an address gets: none for the byte 0. -/
def Memory.cell (a : Nat) (v : Byte) : Memory := if v = 0#8 then [] else [(a, v)]

/-- Memory with the byte at `a` replaced by `v`, in canonical form. -/
def Memory.write : Memory → Nat → Byte → Memory
  | [], a, v => Memory.cell a v
  | (b, x) :: m, a, v =>
    if a < b then Memory.cell a v ++ (b, x) :: m
    else if a = b then Memory.cell a v ++ m
    else (b, x) :: Memory.write m a v

/-- Every listed address is at least `lo`, the addresses rise strictly, and no listed byte is 0. -/
def Memory.wfFrom : Nat → Memory → Bool
  | _, [] => true
  | lo, (a, v) :: m => decide (lo ≤ a) && decide (v ≠ 0#8) && Memory.wfFrom (a + 1) m

/-- The canonical form of memory. -/
def Memory.wf (m : Memory) : Bool := Memory.wfFrom 0 m

/-- `MemRead(a, n)` as a natural number: the most significant byte at the lowest address (20_memory.md R63). -/
def Memory.readBE (m : Memory) (a : Nat) : Nat → Nat
  | 0 => 0
  | n + 1 => (m.read a).toNat * 256 ^ n + Memory.readBE m (a + 1) n

/-- `MemWrite(a, n, v)` (20_memory.md R63). -/
def Memory.writeBE (m : Memory) (a : Nat) : Nat → Nat → Memory
  | 0, _ => m
  | n + 1, v => (Memory.write m a (BitVec.ofNat 8 (v / 256 ^ n))).writeBE (a + 1) n v

/-! ### The register bank, slot by slot -/

/-- `DI[i]`. -/
def Bank.diAt (b : Bank) (i : Nat) : DiSlot := b.di.getD i default
/-- `DO[i]`. -/
def Bank.doAt (b : Bank) (i : Nat) : DoSlot := b.dout.getD i default
/-- `AI[i].VAL`. -/
def Bank.aiAt (b : Bank) (i : Nat) : F64 := b.ai.getD i F64.zero
/-- `AO[i].VAL`. -/
def Bank.aoAt (b : Bank) (i : Nat) : F64 := b.ao.getD i F64.zero
/-- `M[i]`. -/
def Bank.mAt (b : Bank) (i : Nat) : MemSlot := b.m.getD i default
/-- `MR[i].VAL`. -/
def Bank.mrAt (b : Bank) (i : Nat) : F64 := b.mr.getD i F64.zero
/-- `T[i]`. -/
def Bank.tAt (b : Bank) (i : Nat) : TimerSlot := b.t.getD i default
/-- `B[i]`. -/
def Bank.bAt (b : Bank) (i : Nat) : BlinkerSlot := b.b.getD i default

/-- `DO[i]` changed by `f`. -/
def Bank.modDo (b : Bank) (i : Nat) (f : DoSlot → DoSlot) : Bank := { b with dout := b.dout.modify i f }
/-- `AO[i].VAL <- v`. -/
def Bank.setAo (b : Bank) (i : Nat) (v : F64) : Bank := { b with ao := b.ao.set i v }
/-- `M[i]` changed by `f`. -/
def Bank.modM (b : Bank) (i : Nat) (f : MemSlot → MemSlot) : Bank := { b with m := b.m.modify i f }
/-- `MR[i].VAL <- v`. -/
def Bank.setMr (b : Bank) (i : Nat) (v : F64) : Bank := { b with mr := b.mr.set i v }
/-- `T[i]` changed by `f`. -/
def Bank.modT (b : Bank) (i : Nat) (f : TimerSlot → TimerSlot) : Bank := { b with t := b.t.modify i f }

/-! ### Updates of the state -/

/-- `ACC <- a`. -/
def State.setAcc (a : Acc) (s : State) : State := { s with eng := { s.eng with acc := a } }

/-- `PC <- t`. -/
def State.setPc (t : Pc) (s : State) : State := { s with eng := { s.eng with pc := t } }

/-- `PC <- PC + 1`: the end of every instruction that completes and is no taken JMP (47_rung_and_scan.md R212). -/
def State.advance (s : State) : State := s.setPc (s.eng.pc + 1#25)

/-- The register bank replaced. -/
def State.setBank (b : Bank) (s : State) : State := { s with bank := b }

/-- The scan goes on at a phase. -/
def State.enter (p : Phase) (s : State) : State := { s with phase := p }

/-- `LEN[RI]`; 0 where `RI` names no rung. -/
def State.rungLen (s : State) : Nat :=
  match s.prog.rungs[s.eng.ri]? with
  | some r => r.len
  | none => 0

/-- The start of rung `r`: `RI <- r`, `ACC <- EMPTY`, `PC <- 0`, `STEPS <- 0` (47_rung_and_scan.md R210). -/
def State.startRung (r : Nat) (s : State) : State := { s with eng := ⟨.empty, r, 0#25, 0⟩, phase := .rung }

/-! ### Errors -/

/-- `raise E(w)`: the abort of 60_exceptions.md R255. The error registers are latched, the controller stops, the
accumulator is discarded, and the scan leaves the execute loop, so that the tick phase is next (which does
nothing in a stopped controller). Nothing else changes. -/
def State.raise (e : ErrorKind) (w : Word) (s : State) : State :=
  { s with
    ctl := { s.ctl with
      err := some e
      errRung := BitVec.ofNat 32 s.eng.ri
      errPc := s.eng.pc.setWidth 32
      errWord := w
      state := .stopped }
    eng := { s.eng with acc := .empty }
    phase := .tick }

/-- START, the return from an error: `if STATE == STOPPED: STATE <- RUNNING; ERR <- 0` (47_rung_and_scan.md R230,
60_exceptions.md R258). The next scan runs every rung from rung 0. -/
def State.start (s : State) : State :=
  match s.ctl.state with
  | .stopped => { s with ctl := { s.ctl with state := .running, err := none } }
  | .running => s
  | .terminated => s

end Sys2Proof.Machine
end

