-- ==== Sys2Proof/Machine/Operands.lean ====
section
/-! DEFINITION. Operands: the slot counts (spec/00_scope.md R17), the operand read `ReadOp` (spec/41_load.md R122),
the conversions `truth`, `toReal` and `toU64` (spec/41_load.md R121, spec/43_store.md R150, R151), and the
read-only attribute (spec/10_state.md R32). -/

namespace Sys2Proof.Machine

open Sys2Proof

/-- `count(K)` (00_scope.md R17). -/
def count (c : Cfg) : Kind → Nat
  | .di => c.nDI
  | .re => c.nDI
  | .fe => c.nDI
  | .dout => c.nDO
  | .ai => c.ai.length
  | .ao => c.ao.length
  | .m => c.m.length
  | .mr => c.mr.length
  | .t => c.t.length

/-- `ReadOp(K, i)` (41_load.md R122): it has no side effect, and the tag follows the register's type. -/
def readOp (b : Bank) (k : Kind) (i : Nat) : Value :=
  match k with
  | .di => .bool (b.diAt i).i
  | .re => .bool (b.diAt i).re
  | .fe => .bool (b.diAt i).fe
  | .dout => .bool (b.doAt i).q
  | .ai => .real (b.aiAt i)
  | .ao => .real (b.aoAt i)
  | .m => .int (b.mAt i).v
  | .mr => .real (b.mrAt i)
  | .t => .bool (b.tAt i).q

/-- `truth(v)` (41_load.md R121), with REAL_EPSILON as its first argument; a NaN is false. -/
def truth (eps : F64) : Value → Bool
  | .bool b => b
  | .int v => v != 0#64
  | .real r => F64.lt eps r.abs

/-- `toReal(v)` (43_store.md R150). -/
def toReal : Value → F64
  | .bool b => if b then F64.one else F64.zero
  | .int v => F64.ofNat v.toNat
  | .real r => r

/-- `toU64(v)` (43_store.md R151). -/
def toU64 : Value → U64
  | .bool b => if b then 1#64 else 0#64
  | .int v => v
  | .real r => F64.toU64 r

/-- `M[i].RO`. -/
def memRo (c : Cfg) (i : Nat) : Bool := (c.m.getD i default).ro

/-- `MR[i].RO`. -/
def realMemRo (c : Cfg) (i : Nat) : Bool := (c.mr.getD i default).ro

/-- Whether a slot of a kind is read-only: only M and MR carry the flag (10_state.md R32). -/
def readOnly (c : Cfg) (k : Kind) (i : Nat) : Bool :=
  match k with
  | .m => memRo c i
  | .mr => realMemRo c i
  | .di => false
  | .re => false
  | .fe => false
  | .dout => false
  | .ai => false
  | .ao => false
  | .t => false

end Sys2Proof.Machine
end

