-- ==== Sys2Proof/Machine/Flags.lean ====
section
/-! DEFINITION. Flags: edges (spec/40_io_codec.md R102, spec/46_sequencer.md R200), the clearing of the pulse
flags (spec/40_io_codec.md R100), the change-delta mask (R110), the number of an error (spec/60_exceptions.md
R250) and the control registers the host reads (spec/10_state.md R39). -/

namespace Sys2Proof.Machine

open Sys2Proof

/-- A rising edge: `now AND NOT before`. -/
def risingEdge (now before : Bool) : Bool := now && !before

/-- A falling edge: `NOT now AND before`. -/
def fallingEdge (now before : Bool) : Bool := !now && before

/-- Decode step 1: every SETF and RESETF of the outputs and of the integer memory is cleared (40_io_codec.md
R100). -/
def Bank.clearPulses (b : Bank) : Bank :=
  { b with
    dout := b.dout.map fun d => { d with setf := false, resetf := false }
    m := b.m.map fun x => { x with setf := false, resetf := false } }

/-- Whether one of the slots `0 .. n-1` differs. -/
def anySlot (n : Nat) (differs : Nat → Bool) : Bool := (List.range n).any differs

/-- DELTA[0], INPUTS (40_io_codec.md R110). -/
def inputsChanged (c : Cfg) (b p : Bank) : Bool :=
  anySlot c.nDI (fun i => (b.diAt i).i != (p.diAt i).i) || anySlot c.ai.length (fun i => b.aiAt i != p.aiAt i)

/-- DELTA[1], OUTPUTS (40_io_codec.md R110). -/
def outputsChanged (c : Cfg) (b p : Bank) : Bool :=
  anySlot c.nDO (fun i => (b.doAt i).q != (p.doAt i).q) || anySlot c.ao.length (fun i => b.aoAt i != p.aoAt i)

/-- DELTA[2], MEMORY (40_io_codec.md R110). -/
def memoryChanged (c : Cfg) (b p : Bank) : Bool :=
  anySlot c.m.length (fun i => (b.mAt i).v != (p.mAt i).v) || anySlot c.mr.length (fun i => b.mrAt i != p.mrAt i)

/-- DELTA[3], TIMERS (40_io_codec.md R110). -/
def timersChanged (c : Cfg) (b p : Bank) : Bool :=
  anySlot c.t.length (fun i => (b.tAt i).v != (p.tAt i).v || (b.tAt i).q != (p.tAt i).q
    || (b.tAt i).start != (p.tAt i).start)
  || anySlot c.b.length (fun i => (b.bAt i).q != (p.bAt i).q)

/-- DELTA[4], STATUS (40_io_codec.md R110). -/
def statusChanged (k : Controller) (p : Prev) : Bool := decide (k.state ≠ p.state) || decide (k.err ≠ p.err)

/-- The change-delta mask of the state against PREV (40_io_codec.md R110): bit 0 is the least significant. -/
def deltaMask (s : State) : BitVec 5 :=
  BitVec.ofBool (statusChanged s.ctl s.prev) ++ BitVec.ofBool (timersChanged s.cfg s.bank s.prev.bank)
    ++ BitVec.ofBool (memoryChanged s.cfg s.bank s.prev.bank)
    ++ BitVec.ofBool (outputsChanged s.cfg s.bank s.prev.bank)
    ++ BitVec.ofBool (inputsChanged s.cfg s.bank s.prev.bank)

/-- The number of an error kind (60_exceptions.md R250). -/
def errorCode : ErrorKind → BitVec 4
  | .badChar => 1#4
  | .badFile => 2#4
  | .badOperand => 3#4
  | .badIndex => 4#4
  | .badCoil => 5#4
  | .badOperator => 6#4
  | .timeout => 7#4
  | .overflow => 8#4
  | .badProg => 9#4

/-- The ERR field: 0 for no error (10_state.md R37). -/
def errField : Option ErrorKind → BitVec 4
  | none => 0#4
  | some e => errorCode e

/-- The STATE field (10_state.md R39); 11 is never produced. -/
def stateField : RunState → BitVec 2
  | .stopped => 0#2
  | .running => 1#2
  | .terminated => 2#2

/-- The control register STATUS: bits 31:12 and 7:3 read as 0 (10_state.md R39). -/
def statusWord (k : Controller) : Word :=
  0#20 ++ errField k.err ++ 0#5 ++ BitVec.ofBool k.shutdownReq ++ stateField k.state

/-- The control register DELTA: bits 31:5 read as 0 (10_state.md R39). -/
def deltaWord (k : Controller) : Word := k.delta.setWidth 32

/-- The control register of a number; `none` for a number that names none (10_state.md R39). -/
def readCsr (k : Controller) (n : Nat) : Option Word :=
  match n with
  | 0 => some (statusWord k)
  | 1 => some k.errRung
  | 2 => some k.errPc
  | 3 => some k.errWord
  | 4 => some (deltaWord k)
  | _ => none

end Sys2Proof.Machine
end

