-- ==== Sys2Proof/Machine/Load.lean ====
section
/-! DEFINITION. The LOAD family (spec/41_load.md): the shared operation of R123 and the nine instructions. -/

namespace Sys2Proof.Machine

open Sys2Proof

/-- LD (41_load.md R123), for the word `w` of kind `k` and index `i`: the bounds check, then
`ACC <- ReadOp(K, i)` and `PC <- PC + 1`. The prior accumulator is discarded. -/
def loadOp (k : Kind) (i : Index) (w : Word) (s : State) : State :=
  if i.toNat < count s.cfg k then (s.setAcc (.val (readOp s.bank k i.toNat))).advance
  else s.raise .badIndex w

/-- `LD DI,i` (41_load.md R124). -/
def execLdDi (i : Index) (s : State) : Host.Outcome State Fault Refusal :=
  .next (loadOp .di i (encode (.ldDi i)) s)

/-- `LD RE,i` (41_load.md R125). -/
def execLdRe (i : Index) (s : State) : Host.Outcome State Fault Refusal :=
  .next (loadOp .re i (encode (.ldRe i)) s)

/-- `LD FE,i` (41_load.md R126). -/
def execLdFe (i : Index) (s : State) : Host.Outcome State Fault Refusal :=
  .next (loadOp .fe i (encode (.ldFe i)) s)

/-- `LD DO,i` (41_load.md R127). -/
def execLdDo (i : Index) (s : State) : Host.Outcome State Fault Refusal :=
  .next (loadOp .dout i (encode (.ldDo i)) s)

/-- `LD AI,i` (41_load.md R128). -/
def execLdAi (i : Index) (s : State) : Host.Outcome State Fault Refusal :=
  .next (loadOp .ai i (encode (.ldAi i)) s)

/-- `LD AO,i` (41_load.md R129). -/
def execLdAo (i : Index) (s : State) : Host.Outcome State Fault Refusal :=
  .next (loadOp .ao i (encode (.ldAo i)) s)

/-- `LD M,i` (41_load.md R130). -/
def execLdM (i : Index) (s : State) : Host.Outcome State Fault Refusal :=
  .next (loadOp .m i (encode (.ldM i)) s)

/-- `LD MR,i` (41_load.md R131). -/
def execLdMr (i : Index) (s : State) : Host.Outcome State Fault Refusal :=
  .next (loadOp .mr i (encode (.ldMr i)) s)

/-- `LD T,i` (41_load.md R132). -/
def execLdT (i : Index) (s : State) : Host.Outcome State Fault Refusal :=
  .next (loadOp .t i (encode (.ldT i)) s)

end Sys2Proof.Machine
end

