-- ==== Sys2Proof/Machine/Combine.lean ====
section
/-! DEFINITION. The boolean combinators (spec/42_combine.md): the shared operation of R140, the four functions of
R141 to R144, and the thirty-six instructions. -/

namespace Sys2Proof.Machine

open Sys2Proof

/-- A combinator with function `f` (42_combine.md R140): the bounds check, the EMPTY check, then
`ACC <- BOOL(f(truth(ACC), truth(ReadOp(K, i))))` and `PC <- PC + 1`. -/
def combineOp (f : Bool → Bool → Bool) (k : Kind) (i : Index) (w : Word) (s : State) : State :=
  if i.toNat < count s.cfg k then
    match s.eng.acc with
    | .empty => s.raise .badProg w
    | .val a =>
      (s.setAcc (.val (.bool (f (truth s.cfg.realEpsilon a)
        (truth s.cfg.realEpsilon (readOp s.bank k i.toNat)))))).advance
  else s.raise .badIndex w

/-- AND: `a AND b` (42_combine.md R141). -/
def andFn (a b : Bool) : Bool := a && b
/-- OR: `a OR b` (42_combine.md R142). -/
def orFn (a b : Bool) : Bool := a || b
/-- ANDN: `a AND NOT b` (42_combine.md R143). -/
def andnFn (a b : Bool) : Bool := a && !b
/-- ORN: `a OR NOT b` (42_combine.md R144). -/
def ornFn (a b : Bool) : Bool := a || !b

/-- `AND DI,i` (42_combine.md R141). -/
def execAndDi (i : Index) (s : State) : Host.Outcome State Fault Refusal :=
  .next (combineOp andFn .di i (encode (.andDi i)) s)

/-- `AND RE,i` (42_combine.md R141). -/
def execAndRe (i : Index) (s : State) : Host.Outcome State Fault Refusal :=
  .next (combineOp andFn .re i (encode (.andRe i)) s)

/-- `AND FE,i` (42_combine.md R141). -/
def execAndFe (i : Index) (s : State) : Host.Outcome State Fault Refusal :=
  .next (combineOp andFn .fe i (encode (.andFe i)) s)

/-- `AND DO,i` (42_combine.md R141). -/
def execAndDo (i : Index) (s : State) : Host.Outcome State Fault Refusal :=
  .next (combineOp andFn .dout i (encode (.andDo i)) s)

/-- `AND AI,i` (42_combine.md R141). -/
def execAndAi (i : Index) (s : State) : Host.Outcome State Fault Refusal :=
  .next (combineOp andFn .ai i (encode (.andAi i)) s)

/-- `AND AO,i` (42_combine.md R141). -/
def execAndAo (i : Index) (s : State) : Host.Outcome State Fault Refusal :=
  .next (combineOp andFn .ao i (encode (.andAo i)) s)

/-- `AND M,i` (42_combine.md R141). -/
def execAndM (i : Index) (s : State) : Host.Outcome State Fault Refusal :=
  .next (combineOp andFn .m i (encode (.andM i)) s)

/-- `AND MR,i` (42_combine.md R141). -/
def execAndMr (i : Index) (s : State) : Host.Outcome State Fault Refusal :=
  .next (combineOp andFn .mr i (encode (.andMr i)) s)

/-- `AND T,i` (42_combine.md R141). -/
def execAndT (i : Index) (s : State) : Host.Outcome State Fault Refusal :=
  .next (combineOp andFn .t i (encode (.andT i)) s)

/-- `OR DI,i` (42_combine.md R142). -/
def execOrDi (i : Index) (s : State) : Host.Outcome State Fault Refusal :=
  .next (combineOp orFn .di i (encode (.orDi i)) s)

/-- `OR RE,i` (42_combine.md R142). -/
def execOrRe (i : Index) (s : State) : Host.Outcome State Fault Refusal :=
  .next (combineOp orFn .re i (encode (.orRe i)) s)

/-- `OR FE,i` (42_combine.md R142). -/
def execOrFe (i : Index) (s : State) : Host.Outcome State Fault Refusal :=
  .next (combineOp orFn .fe i (encode (.orFe i)) s)

/-- `OR DO,i` (42_combine.md R142). -/
def execOrDo (i : Index) (s : State) : Host.Outcome State Fault Refusal :=
  .next (combineOp orFn .dout i (encode (.orDo i)) s)

/-- `OR AI,i` (42_combine.md R142). -/
def execOrAi (i : Index) (s : State) : Host.Outcome State Fault Refusal :=
  .next (combineOp orFn .ai i (encode (.orAi i)) s)

/-- `OR AO,i` (42_combine.md R142). -/
def execOrAo (i : Index) (s : State) : Host.Outcome State Fault Refusal :=
  .next (combineOp orFn .ao i (encode (.orAo i)) s)

/-- `OR M,i` (42_combine.md R142). -/
def execOrM (i : Index) (s : State) : Host.Outcome State Fault Refusal :=
  .next (combineOp orFn .m i (encode (.orM i)) s)

/-- `OR MR,i` (42_combine.md R142). -/
def execOrMr (i : Index) (s : State) : Host.Outcome State Fault Refusal :=
  .next (combineOp orFn .mr i (encode (.orMr i)) s)

/-- `OR T,i` (42_combine.md R142). -/
def execOrT (i : Index) (s : State) : Host.Outcome State Fault Refusal :=
  .next (combineOp orFn .t i (encode (.orT i)) s)

/-- `ANDN DI,i` (42_combine.md R143). -/
def execAndnDi (i : Index) (s : State) : Host.Outcome State Fault Refusal :=
  .next (combineOp andnFn .di i (encode (.andnDi i)) s)

/-- `ANDN RE,i` (42_combine.md R143). -/
def execAndnRe (i : Index) (s : State) : Host.Outcome State Fault Refusal :=
  .next (combineOp andnFn .re i (encode (.andnRe i)) s)

/-- `ANDN FE,i` (42_combine.md R143). -/
def execAndnFe (i : Index) (s : State) : Host.Outcome State Fault Refusal :=
  .next (combineOp andnFn .fe i (encode (.andnFe i)) s)

/-- `ANDN DO,i` (42_combine.md R143). -/
def execAndnDo (i : Index) (s : State) : Host.Outcome State Fault Refusal :=
  .next (combineOp andnFn .dout i (encode (.andnDo i)) s)

/-- `ANDN AI,i` (42_combine.md R143). -/
def execAndnAi (i : Index) (s : State) : Host.Outcome State Fault Refusal :=
  .next (combineOp andnFn .ai i (encode (.andnAi i)) s)

/-- `ANDN AO,i` (42_combine.md R143). -/
def execAndnAo (i : Index) (s : State) : Host.Outcome State Fault Refusal :=
  .next (combineOp andnFn .ao i (encode (.andnAo i)) s)

/-- `ANDN M,i` (42_combine.md R143). -/
def execAndnM (i : Index) (s : State) : Host.Outcome State Fault Refusal :=
  .next (combineOp andnFn .m i (encode (.andnM i)) s)

/-- `ANDN MR,i` (42_combine.md R143). -/
def execAndnMr (i : Index) (s : State) : Host.Outcome State Fault Refusal :=
  .next (combineOp andnFn .mr i (encode (.andnMr i)) s)

/-- `ANDN T,i` (42_combine.md R143). -/
def execAndnT (i : Index) (s : State) : Host.Outcome State Fault Refusal :=
  .next (combineOp andnFn .t i (encode (.andnT i)) s)

/-- `ORN DI,i` (42_combine.md R144). -/
def execOrnDi (i : Index) (s : State) : Host.Outcome State Fault Refusal :=
  .next (combineOp ornFn .di i (encode (.ornDi i)) s)

/-- `ORN RE,i` (42_combine.md R144). -/
def execOrnRe (i : Index) (s : State) : Host.Outcome State Fault Refusal :=
  .next (combineOp ornFn .re i (encode (.ornRe i)) s)

/-- `ORN FE,i` (42_combine.md R144). -/
def execOrnFe (i : Index) (s : State) : Host.Outcome State Fault Refusal :=
  .next (combineOp ornFn .fe i (encode (.ornFe i)) s)

/-- `ORN DO,i` (42_combine.md R144). -/
def execOrnDo (i : Index) (s : State) : Host.Outcome State Fault Refusal :=
  .next (combineOp ornFn .dout i (encode (.ornDo i)) s)

/-- `ORN AI,i` (42_combine.md R144). -/
def execOrnAi (i : Index) (s : State) : Host.Outcome State Fault Refusal :=
  .next (combineOp ornFn .ai i (encode (.ornAi i)) s)

/-- `ORN AO,i` (42_combine.md R144). -/
def execOrnAo (i : Index) (s : State) : Host.Outcome State Fault Refusal :=
  .next (combineOp ornFn .ao i (encode (.ornAo i)) s)

/-- `ORN M,i` (42_combine.md R144). -/
def execOrnM (i : Index) (s : State) : Host.Outcome State Fault Refusal :=
  .next (combineOp ornFn .m i (encode (.ornM i)) s)

/-- `ORN MR,i` (42_combine.md R144). -/
def execOrnMr (i : Index) (s : State) : Host.Outcome State Fault Refusal :=
  .next (combineOp ornFn .mr i (encode (.ornMr i)) s)

/-- `ORN T,i` (42_combine.md R144). -/
def execOrnT (i : Index) (s : State) : Host.Outcome State Fault Refusal :=
  .next (combineOp ornFn .t i (encode (.ornT i)) s)

end Sys2Proof.Machine
end

