-- ==== Sys2Proof/Machine/Store.lean ====
section
/-! DEFINITION. The STORE family (spec/43_store.md): the shared operation of R156 and the four instructions. -/

namespace Sys2Proof.Machine

open Sys2Proof

/-- ST (43_store.md R156), with `wr` the write of the accumulator's value into the bank: the bounds check, the
EMPTY check, the read-only check (made always, for a ST always attempts its write), then the write and
`PC <- PC + 1`. ACC is unchanged. -/
def storeOp (k : Kind) (i : Index) (wr : Value → Bank → Bank) (w : Word) (s : State) : State :=
  if i.toNat < count s.cfg k then
    match s.eng.acc with
    | .empty => s.raise .badProg w
    | .val v =>
      if readOnly s.cfg k i.toNat then s.raise .badOperand w
      else (s.setBank (wr v s.bank)).advance
  else s.raise .badIndex w

/-- `ST DO,i` (43_store.md R152): `DO[i].Q <- truth(ACC)`. -/
def execStDo (i : Index) (s : State) : Host.Outcome State Fault Refusal :=
  .next (storeOp .dout i
    (fun v b => b.modDo i.toNat fun d => { d with q := truth s.cfg.realEpsilon v }) (encode (.stDo i)) s)

/-- `ST AO,i` (43_store.md R153): `AO[i].VAL <- toReal(ACC)`. -/
def execStAo (i : Index) (s : State) : Host.Outcome State Fault Refusal :=
  .next (storeOp .ao i (fun v b => b.setAo i.toNat (toReal v)) (encode (.stAo i)) s)

/-- `ST M,i` (43_store.md R154): `M[i].V <- toU64(ACC)`. -/
def execStM (i : Index) (s : State) : Host.Outcome State Fault Refusal :=
  .next (storeOp .m i (fun v b => b.modM i.toNat fun x => { x with v := toU64 v }) (encode (.stM i)) s)

/-- `ST MR,i` (43_store.md R155): `MR[i].VAL <- toReal(ACC)`. -/
def execStMr (i : Index) (s : State) : Host.Outcome State Fault Refusal :=
  .next (storeOp .mr i (fun v b => b.setMr i.toNat (toReal v)) (encode (.stMr i)) s)

end Sys2Proof.Machine
end

