-- ==== Sys2Proof/Machine/SetReset.lean ====
section
/-! DEFINITION. SET and RESET (spec/44_set_reset.md): the shared operation of R160 and the ten instructions. -/

namespace Sys2Proof.Machine

open Sys2Proof

/-- SET or RST (44_set_reset.md R160), with `wr` the write `W(K, i)` of a constant: the bounds check, the EMPTY
check, then, only when `truth(ACC)` is true, the read-only check and the write; `PC <- PC + 1`. ACC is unchanged. -/
def setOp (k : Kind) (i : Index) (wr : Bank → Bank) (w : Word) (s : State) : State :=
  if i.toNat < count s.cfg k then
    match s.eng.acc with
    | .empty => s.raise .badProg w
    | .val v =>
      if truth s.cfg.realEpsilon v then
        if readOnly s.cfg k i.toNat then s.raise .badOperand w
        else (s.setBank (wr s.bank)).advance
      else s.advance
  else s.raise .badIndex w

/-- `SET DO,i` (44_set_reset.md R161): `DO[i].Q <- 1; DO[i].SETF <- 1`. -/
def execSetDo (i : Index) (s : State) : Host.Outcome State Fault Refusal :=
  .next (setOp .dout i
    (fun b => b.modDo i.toNat fun d => { d with q := true, setf := true }) (encode (.setDo i)) s)

/-- `SET AO,i` (44_set_reset.md R162): `AO[i].VAL <- 1.0`. -/
def execSetAo (i : Index) (s : State) : Host.Outcome State Fault Refusal :=
  .next (setOp .ao i
    (fun b => b.setAo i.toNat F64.one) (encode (.setAo i)) s)

/-- `SET M,i` (44_set_reset.md R163): `M[i].PULSE <- 1; M[i].SETF <- 1`. -/
def execSetM (i : Index) (s : State) : Host.Outcome State Fault Refusal :=
  .next (setOp .m i
    (fun b => b.modM i.toNat fun x => { x with pulse := true, setf := true }) (encode (.setM i)) s)

/-- `SET MR,i` (44_set_reset.md R164): `MR[i].VAL <- 1.0`. -/
def execSetMr (i : Index) (s : State) : Host.Outcome State Fault Refusal :=
  .next (setOp .mr i
    (fun b => b.setMr i.toNat F64.one) (encode (.setMr i)) s)

/-- `SET T,i` (44_set_reset.md R165): `T[i].START <- 1`. -/
def execSetT (i : Index) (s : State) : Host.Outcome State Fault Refusal :=
  .next (setOp .t i
    (fun b => b.modT i.toNat fun x => { x with start := true }) (encode (.setT i)) s)

/-- `RST DO,i` (44_set_reset.md R166): `DO[i].Q <- 0; DO[i].RESETF <- 1`. -/
def execRstDo (i : Index) (s : State) : Host.Outcome State Fault Refusal :=
  .next (setOp .dout i
    (fun b => b.modDo i.toNat fun d => { d with q := false, resetf := true }) (encode (.rstDo i)) s)

/-- `RST AO,i` (44_set_reset.md R167): `AO[i].VAL <- +0.0`. -/
def execRstAo (i : Index) (s : State) : Host.Outcome State Fault Refusal :=
  .next (setOp .ao i
    (fun b => b.setAo i.toNat F64.zero) (encode (.rstAo i)) s)

/-- `RST M,i` (44_set_reset.md R168): `M[i].PULSE <- 0; M[i].RESETF <- 1`. -/
def execRstM (i : Index) (s : State) : Host.Outcome State Fault Refusal :=
  .next (setOp .m i
    (fun b => b.modM i.toNat fun x => { x with pulse := false, resetf := true }) (encode (.rstM i)) s)

/-- `RST MR,i` (44_set_reset.md R169): `MR[i].VAL <- +0.0`. -/
def execRstMr (i : Index) (s : State) : Host.Outcome State Fault Refusal :=
  .next (setOp .mr i
    (fun b => b.setMr i.toNat F64.zero) (encode (.rstMr i)) s)

/-- `RST T,i` (44_set_reset.md R170): `T[i].START <- 0`. -/
def execRstT (i : Index) (s : State) : Host.Outcome State Fault Refusal :=
  .next (setOp .t i
    (fun b => b.modT i.toNat fun x => { x with start := false }) (encode (.rstT i)) s)

end Sys2Proof.Machine
end

