-- ==== Sys2Proof/Machine/Jump.lean ====
section
/-! DEFINITION. JUMP (spec/45_jump.md R180). -/

namespace Sys2Proof.Machine

open Sys2Proof

/-- JMP (45_jump.md R180): the target check, made whether or not the jump is taken, the EMPTY check, then
`PC <- t` when `truth(ACC)`, else `PC <- PC + 1`. ACC is unchanged. -/
def jumpOp (t : Index) (w : Word) (s : State) : State :=
  if t.toNat < s.rungLen then
    match s.eng.acc with
    | .empty => s.raise .badProg w
    | .val v => if truth s.cfg.realEpsilon v then s.setPc (t.setWidth 25) else s.advance
  else s.raise .badProg w

/-- `JMP t` (45_jump.md R180). -/
def execJmp (t : Index) (s : State) : Host.Outcome State Fault Refusal :=
  .next (jumpOp t (encode (.jmp t)) s)

end Sys2Proof.Machine
end

