-- ==== Sys2Proof/Machine/Dispatch.lean ====
section
/-! DEFINITION. The dispatch: one arm per constructor of Instr, each one call of that instruction's meaning
(spec/47_rung_and_scan.md R212). -/

namespace Sys2Proof.Machine

open Sys2Proof

def exec (i : Instr) (s : State) : Host.Outcome State Fault Refusal :=
  match i with
  | .ldDi x => Sys2Proof.Machine.execLdDi x s
  | .ldRe x => Sys2Proof.Machine.execLdRe x s
  | .ldFe x => Sys2Proof.Machine.execLdFe x s
  | .ldDo x => Sys2Proof.Machine.execLdDo x s
  | .ldAi x => Sys2Proof.Machine.execLdAi x s
  | .ldAo x => Sys2Proof.Machine.execLdAo x s
  | .ldM x => Sys2Proof.Machine.execLdM x s
  | .ldMr x => Sys2Proof.Machine.execLdMr x s
  | .ldT x => Sys2Proof.Machine.execLdT x s
  | .andDi x => Sys2Proof.Machine.execAndDi x s
  | .andRe x => Sys2Proof.Machine.execAndRe x s
  | .andFe x => Sys2Proof.Machine.execAndFe x s
  | .andDo x => Sys2Proof.Machine.execAndDo x s
  | .andAi x => Sys2Proof.Machine.execAndAi x s
  | .andAo x => Sys2Proof.Machine.execAndAo x s
  | .andM x => Sys2Proof.Machine.execAndM x s
  | .andMr x => Sys2Proof.Machine.execAndMr x s
  | .andT x => Sys2Proof.Machine.execAndT x s
  | .orDi x => Sys2Proof.Machine.execOrDi x s
  | .orRe x => Sys2Proof.Machine.execOrRe x s
  | .orFe x => Sys2Proof.Machine.execOrFe x s
  | .orDo x => Sys2Proof.Machine.execOrDo x s
  | .orAi x => Sys2Proof.Machine.execOrAi x s
  | .orAo x => Sys2Proof.Machine.execOrAo x s
  | .orM x => Sys2Proof.Machine.execOrM x s
  | .orMr x => Sys2Proof.Machine.execOrMr x s
  | .orT x => Sys2Proof.Machine.execOrT x s
  | .andnDi x => Sys2Proof.Machine.execAndnDi x s
  | .andnRe x => Sys2Proof.Machine.execAndnRe x s
  | .andnFe x => Sys2Proof.Machine.execAndnFe x s
  | .andnDo x => Sys2Proof.Machine.execAndnDo x s
  | .andnAi x => Sys2Proof.Machine.execAndnAi x s
  | .andnAo x => Sys2Proof.Machine.execAndnAo x s
  | .andnM x => Sys2Proof.Machine.execAndnM x s
  | .andnMr x => Sys2Proof.Machine.execAndnMr x s
  | .andnT x => Sys2Proof.Machine.execAndnT x s
  | .ornDi x => Sys2Proof.Machine.execOrnDi x s
  | .ornRe x => Sys2Proof.Machine.execOrnRe x s
  | .ornFe x => Sys2Proof.Machine.execOrnFe x s
  | .ornDo x => Sys2Proof.Machine.execOrnDo x s
  | .ornAi x => Sys2Proof.Machine.execOrnAi x s
  | .ornAo x => Sys2Proof.Machine.execOrnAo x s
  | .ornM x => Sys2Proof.Machine.execOrnM x s
  | .ornMr x => Sys2Proof.Machine.execOrnMr x s
  | .ornT x => Sys2Proof.Machine.execOrnT x s
  | .stDo x => Sys2Proof.Machine.execStDo x s
  | .stAo x => Sys2Proof.Machine.execStAo x s
  | .stM x => Sys2Proof.Machine.execStM x s
  | .stMr x => Sys2Proof.Machine.execStMr x s
  | .setDo x => Sys2Proof.Machine.execSetDo x s
  | .setAo x => Sys2Proof.Machine.execSetAo x s
  | .setM x => Sys2Proof.Machine.execSetM x s
  | .setMr x => Sys2Proof.Machine.execSetMr x s
  | .setT x => Sys2Proof.Machine.execSetT x s
  | .rstDo x => Sys2Proof.Machine.execRstDo x s
  | .rstAo x => Sys2Proof.Machine.execRstAo x s
  | .rstM x => Sys2Proof.Machine.execRstM x s
  | .rstMr x => Sys2Proof.Machine.execRstMr x s
  | .rstT x => Sys2Proof.Machine.execRstT x s
  | .jmp x => Sys2Proof.Machine.execJmp x s

end Sys2Proof.Machine
end

