-- ==== Sys2Proof/Machine/Codec.lean ====
section
/-! DEFINITION. The I/O codec (spec/40_io_codec.md): the decode phase (R100 to R106), the encode phase (R108, R109)
and the change-delta phase (R110, R111). -/

namespace Sys2Proof.Machine

open Sys2Proof

/-! ### Analog conversion -/

/-- `2^B - 1`: the largest B-bit sample, and the mask of a sample's significant bits (20_memory.md R65). -/
def sampleMax (bits : Nat) : Nat := 2 ^ bits - 1

/-- The significant bits `[ANALOG_BITS-1 : 0]` of a raw analog word (20_memory.md R65, R66). -/
def sampleBits (bits : Nat) (w : U64) : U64 := w &&& BitVec.ofNat 64 (sampleMax bits)

/-- The default `analogDecode` (40_io_codec.md R105): `MIN + ((MAX - MIN) * toReal(raw)) / FS`. -/
def linearDecode (bits : Nat) (raw : U64) (r : Range) : F64 :=
  F64.add r.min (F64.div (F64.mul (F64.sub r.max r.min) (F64.ofNat raw.toNat)) (F64.ofNat (sampleMax bits)))

/-- The default `analogEncode` (40_io_codec.md R109): `((v - MIN) * FS) / (MAX - MIN)`, clamped to `0 .. 2^B - 1`
and rounded to the nearest integer, ties to even; a NaN gives 0. -/
def linearEncode (bits : Nat) (v : F64) (r : Range) : U64 :=
  if v.isNaN then 0#64
  else
    let fs := F64.ofNat (sampleMax bits)
    let x := F64.div (F64.mul (F64.sub v r.min) fs) (F64.sub r.max r.min)
    if x.isNaN || F64.le x F64.zero then 0#64
    else if F64.le fs x then BitVec.ofNat 64 (sampleMax bits)
    else BitVec.ofNat 64 (roundHalfEven x.mag F64.unitsPerOne)

/-- `analogDecode` of the configuration (00_scope.md R13). -/
def analogDecode (c : Cfg) (raw : U64) (r : Range) : F64 :=
  match c.analogMap with
  | .linear => linearDecode c.analogBits raw r
  | .other id => Config.analogDecodeOther id c.analogBits raw r

/-- `analogEncode` of the configuration (00_scope.md R13). -/
def analogEncode (c : Cfg) (v : F64) (r : Range) : U64 :=
  match c.analogMap with
  | .linear => linearEncode c.analogBits v r
  | .other id => Config.analogEncodeOther id c.analogBits v r

/-! ### Decode phase -/

/-- Bit `i mod 8` of byte `floor(i / 8)`: channel `i` of a digital raw buffer (20_memory.md R65, R66). -/
def rawBit (m : Memory) (i : Nat) : Bool := (m.read (i / 8)).getLsbD (i % 8)

/-- The analog word of channel `i`: `MemRead(8i, 8)` (20_memory.md R65). -/
def rawWord (m : Memory) (i : Nat) : U64 := BitVec.ofNat 64 (m.readBE (8 * i) 8)

/-- The forcing registers of a digital channel. -/
def bitForceAt (l : List BitForce) (i : Nat) : BitForce := l.getD i default

/-- The forcing registers of an analog channel. -/
def realForceAt (l : List RealForce) (i : Nat) : RealForce := l.getD i default

/-- The conversion range of an analog channel. -/
def rangeAt (l : List Range) (i : Nat) : Range := l.getD i default

/-- A digital value after forcing (40_io_codec.md R101, R108). -/
def BitForce.apply (f : BitForce) (b : Bool) : Bool := if f.mask then f.value else b

/-- An analog value after forcing (40_io_codec.md R104, R108). -/
def RealForce.apply (f : RealForce) (v : F64) : F64 := if f.on then f.value else v

/-- The decoded value of digital input `i` (40_io_codec.md R101). -/
def decodedBit (s : State) (i : Nat) : Bool := (bitForceAt s.force.di i).apply (rawBit s.rawDI i)

/-- The decoded value of analog input `i` (40_io_codec.md R104). -/
def decodedReal (s : State) (i : Nat) : F64 :=
  (realForceAt s.force.ai i).apply
    (analogDecode s.cfg (sampleBits s.cfg.analogBits (rawWord s.rawAI i)) (rangeAt s.cfg.ai i))

/-- Digital input `i` after decode: the decoded value and its edges against PREV (40_io_codec.md R101, R102). -/
def decodedDi (s : State) (i : Nat) : DiSlot :=
  ⟨decodedBit s i, risingEdge (decodedBit s i) (s.prev.bank.diAt i).i,
    fallingEdge (decodedBit s i) (s.prev.bank.diAt i).i⟩

/-- Phase 1 (40_io_codec.md R100, R101, R102, R104). -/
def decodePhase (s : State) : State :=
  let b := s.bank.clearPulses
  s.setBank { b with
    di := b.di.mapIdx fun i _ => decodedDi s i
    ai := b.ai.mapIdx fun i _ => decodedReal s i }

/-! ### Encode phase -/

/-- What drives raw output bit `i`: the output after forcing, and 0 for a padding bit (40_io_codec.md R108,
20_memory.md R66). -/
def drivenBit (s : State) (i : Nat) : Bool :=
  decide (i < s.cfg.nDO) && (bitForceAt s.force.dout i).apply (s.bank.doAt i).q

/-- Byte `j` of `RAW_DO`. -/
def drivenByte (s : State) (j : Nat) : Byte :=
  BitVec.ofBool (drivenBit s (8 * j + 7)) ++ BitVec.ofBool (drivenBit s (8 * j + 6))
    ++ BitVec.ofBool (drivenBit s (8 * j + 5)) ++ BitVec.ofBool (drivenBit s (8 * j + 4))
    ++ BitVec.ofBool (drivenBit s (8 * j + 3)) ++ BitVec.ofBool (drivenBit s (8 * j + 2))
    ++ BitVec.ofBool (drivenBit s (8 * j + 1)) ++ BitVec.ofBool (drivenBit s (8 * j))

/-- The word written for analog output `i`: its encoded sample, zero-extended (40_io_codec.md R108). -/
def drivenWord (s : State) (i : Nat) : U64 :=
  sampleBits s.cfg.analogBits
    (analogEncode s.cfg ((realForceAt s.force.ao i).apply (s.bank.aoAt i)) (rangeAt s.cfg.ao i))

/-- The size of a digital raw buffer: `ceil(n / 8)` bytes (20_memory.md R65, R66). -/
def bitBytes (n : Nat) : Nat := (n + 7) / 8

/-- The bytes `0 .. n-1` of a buffer written by a function of the byte's number. -/
def writeBytes (f : Nat → Byte) : Nat → Memory → Memory
  | 0, m => m
  | n + 1, m => (writeBytes f n m).write n (f n)

/-- The 8-byte words `0 .. n-1` of a buffer written by a function of the channel. -/
def writeWords (f : Nat → U64) : Nat → Memory → Memory
  | 0, m => m
  | n + 1, m => (writeWords f n m).writeBE (8 * n) 8 (f n).toNat

/-- Phase 3 (40_io_codec.md R108). -/
def encodePhase (s : State) : State :=
  { s with
    rawDO := writeBytes (drivenByte s) (bitBytes s.cfg.nDO) s.rawDO
    rawAO := writeWords (drivenWord s) s.cfg.ao.length s.rawAO }

/-! ### Change-delta phase -/

/-- Phase 4: DELTA, and then PREV replaced whole by the current values (40_io_codec.md R110, R111). -/
def deltaPhase (s : State) : State :=
  { s with
    ctl := { s.ctl with delta := deltaMask s }
    prev := ⟨s.bank, s.ctl.state, s.ctl.err⟩ }

end Sys2Proof.Machine
end

