-- ==== Sys2Proof/Machine/HostPort.lean ====
section
/-! DEFINITION. The host port (spec/47_rung_and_scan.md R230 to R236): the host operations, their effects and their
answers, the register snapshot (spec/40_io_codec.md R112) and its bytes (spec/20_memory.md R79). START is in
Machine/Ops.lean, beside the abort it returns from. -/

namespace Sys2Proof.Machine

open Sys2Proof

/-- STOP: `if STATE == RUNNING: STATE <- STOPPED`; ERR is unchanged (47_rung_and_scan.md R231). -/
def State.stop (s : State) : State :=
  match s.ctl.state with
  | .running => { s with ctl := { s.ctl with state := .stopped } }
  | .stopped => s
  | .terminated => s

/-- SHUTDOWN: `SHUTDOWN_REQ <- 1` (47_rung_and_scan.md R233). -/
def State.requestShutdown (s : State) : State := { s with ctl := { s.ctl with shutdownReq := true } }

/-- The forcing registers replaced. -/
def State.setForce (f : Forcing) (s : State) : State := { s with force := f }

/-- A force or unforce operation on slot `i` of a kind with `n` slots: ERR_BAD_INDEX and no change out of range
(40_io_codec.md R114). -/
def forceOp (n i : Nat) (f : Forcing) (s : State) : State × Answer :=
  if i < n then (s.setForce f, .ok) else (s, .badIndex)

/-- A query of a mask bit: it changes nothing (40_io_codec.md R113). -/
def queryOp (n i : Nat) (b : Bool) (s : State) : State × Answer :=
  if i < n then (s, .bit b) else (s, .badIndex)

/-- The register snapshot (40_io_codec.md R112). -/
def snapshot (s : State) : Snapshot where
  bank := s.bank
  aiRange := s.cfg.ai
  aoRange := s.cfg.ao
  mFlags := s.cfg.m.map fun x => (x.ro, x.down)
  mrRo := s.cfg.mr.map fun x => x.ro
  tCfg := s.cfg.t
  bScale := s.cfg.b
  force := s.force
  status := statusWord s.ctl
  errRung := s.ctl.errRung
  errPc := s.ctl.errPc
  errWord := s.ctl.errWord
  delta := deltaWord s.ctl

/-- One host operation: the state after it and its answer (47_rung_and_scan.md R233). -/
def applyOp (op : HostOp) (s : State) : State × Answer :=
  match op with
  | .start => (s.start, .ok)
  | .stop => (s.stop, .ok)
  | .shutdown => (s.requestShutdown, .ok)
  | .forceDI i b => forceOp s.cfg.nDI i { s.force with di := s.force.di.set i ⟨true, b⟩ } s
  | .unforceDI i => forceOp s.cfg.nDI i { s.force with di := s.force.di.set i ⟨false, false⟩ } s
  | .forceDO i b => forceOp s.cfg.nDO i { s.force with dout := s.force.dout.set i ⟨true, b⟩ } s
  | .unforceDO i => forceOp s.cfg.nDO i { s.force with dout := s.force.dout.set i ⟨false, false⟩ } s
  | .forceAI i r => forceOp s.cfg.ai.length i { s.force with ai := s.force.ai.set i ⟨true, r⟩ } s
  | .unforceAI i => forceOp s.cfg.ai.length i { s.force with ai := s.force.ai.set i ⟨false, F64.zero⟩ } s
  | .forceAO i r => forceOp s.cfg.ao.length i { s.force with ao := s.force.ao.set i ⟨true, r⟩ } s
  | .unforceAO i => forceOp s.cfg.ao.length i { s.force with ao := s.force.ao.set i ⟨false, F64.zero⟩ } s
  | .isInputForced i => queryOp s.cfg.nDI i (bitForceAt s.force.di i).mask s
  | .isOutputForced i => queryOp s.cfg.nDO i (bitForceAt s.force.dout i).mask s
  | .isAIForced i => queryOp s.cfg.ai.length i (realForceAt s.force.ai i).on s
  | .isAOForced i => queryOp s.cfg.ao.length i (realForceAt s.force.ao i).on s
  | .readSnapshot => (s, .snapshot (snapshot s))
  | .readCsr n =>
    match readCsr s.ctl n with
    | some v => (s, .csr v)
    | none => (s, .badIndex)

/-- The host operations of one phase 5, one after another in the order issued (47_rung_and_scan.md R234), with
their answers in the same order. -/
def applyOps : List HostOp → State → State × List Answer
  | [], s => (s, [])
  | op :: ops, s =>
    let (s1, a) := applyOp op s
    let (s2, as) := applyOps ops s1
    (s2, a :: as)

/-- Phase 5: the operations of this scan are applied and their answers handed over. -/
def hostPhase (s : State) : State :=
  let (s1, as) := applyOps s.hostOps s
  { s1 with hostOps := [], answers := as }

/-! ### The snapshot as bytes (20_memory.md R79) -/

/-- `n` bytes of a number, the most significant first. -/
def bigEndian : Nat → Nat → List Byte
  | 0, _ => []
  | n + 1, v => BitVec.ofNat 8 (v / 256 ^ n) :: bigEndian n v

/-- A bit field: one byte holding 0 or 1. -/
def bitByte (b : Bool) : List Byte := [if b then 1#8 else 0#8]

/-- A u64 field: 8 bytes. -/
def u64Bytes (v : U64) : List Byte := bigEndian 8 v.toNat

/-- An f64 field: its pattern as 8 bytes. -/
def f64Bytes (v : F64) : List Byte := u64Bytes v.bits

/-- A 32-bit control register: 4 bytes (DESIGN CHOICE, log entry 14: R79 gives no width for it). -/
def wordBytes (w : Word) : List Byte := bigEndian 4 w.toNat

/-- The register bank of a snapshot as bytes: the fields in the order of 10_state.md R22 to R29, slot by slot. -/
def Snapshot.bankBytes (s : Snapshot) : List Byte :=
  (s.bank.di.map fun d => bitByte d.i ++ bitByte d.re ++ bitByte d.fe).flatten
  ++ (s.bank.dout.map fun d => bitByte d.q ++ bitByte d.setf ++ bitByte d.resetf).flatten
  ++ (s.bank.ai.mapIdx fun i v => f64Bytes v ++ f64Bytes (rangeAt s.aiRange i).min
      ++ f64Bytes (rangeAt s.aiRange i).max).flatten
  ++ (s.bank.ao.mapIdx fun i v => f64Bytes v ++ f64Bytes (rangeAt s.aoRange i).min
      ++ f64Bytes (rangeAt s.aoRange i).max).flatten
  ++ (s.bank.m.mapIdx fun i x => u64Bytes x.v ++ bitByte x.pulse ++ bitByte x.edge ++ bitByte x.setf
      ++ bitByte x.resetf ++ bitByte (s.mFlags.getD i default).1 ++ bitByte (s.mFlags.getD i default).2).flatten
  ++ (s.bank.mr.mapIdx fun i v => f64Bytes v ++ bitByte (s.mrRo.getD i default)).flatten
  ++ (s.bank.t.mapIdx fun i x => u64Bytes x.c ++ u64Bytes x.v ++ bitByte x.q ++ bitByte x.start
      ++ u64Bytes (s.tCfg.getD i default).scale ++ u64Bytes (s.tCfg.getD i default).preset
      ++ bitByte (s.tCfg.getD i default).onDelay).flatten
  ++ (s.bank.b.mapIdx fun i x => u64Bytes x.c ++ bitByte x.q ++ u64Bytes (s.bScale.getD i default)).flatten

/-- The forcing registers of a snapshot as bytes, channel by channel, each channel's mask or enable bit and then its
value: the digital ones in the order of 10_state.md R30, then the analog ones in the order of R31 (DESIGN CHOICE, log
entry 14: R79 says how wide each field is, and orders only R22 to R29). -/
def Snapshot.forceBytes (s : Snapshot) : List Byte :=
  (s.force.di.map fun f => bitByte f.mask ++ bitByte f.value).flatten
  ++ (s.force.dout.map fun f => bitByte f.mask ++ bitByte f.value).flatten
  ++ (s.force.ai.map fun f => bitByte f.on ++ f64Bytes f.value).flatten
  ++ (s.force.ao.map fun f => bitByte f.on ++ f64Bytes f.value).flatten

/-- The control registers of a snapshot as bytes, in the order of their numbers (10_state.md R39; DESIGN CHOICE, log
entry 14). -/
def Snapshot.controlBytes (s : Snapshot) : List Byte :=
  wordBytes s.status ++ wordBytes s.errRung ++ wordBytes s.errPc ++ wordBytes s.errWord ++ wordBytes s.delta

/-- The whole register snapshot as bytes (20_memory.md R79): the register bank, then the forcing registers and the
control registers, which is the order in which 40_io_codec.md R112 names them. -/
def Snapshot.bytes (s : Snapshot) : List Byte := s.bankBytes ++ s.forceBytes ++ s.controlBytes

end Sys2Proof.Machine
end

