-- ==== Sys2Proof/Machine/Sequencer.lean ====
section
/-! DEFINITION. The tick phase (spec/46_sequencer.md): timers (R190), blinkers (R197) and counters (R200). -/

namespace Sys2Proof.Machine

open Sys2Proof

/-- The configuration of timer `i`. -/
def timerCfgAt (c : Cfg) (i : Nat) : TimerCfg := c.t.getD i default

/-- The scale of blinker `i`. -/
def blinkerScaleAt (c : Cfg) (i : Nat) : U64 := c.b.getD i 0#64

/-- The direction flag of counter `i`: `true` counts down (10_state.md R26). -/
def memDown (c : Cfg) (i : Nat) : Bool := (c.m.getD i default).down

/-- `C` and `V` of a counting timer after the sub-tick: `C + 1`, or `V + 1` and `C = 0` when the scale is reached
(46_sequencer.md R190). -/
def timerCount (k : TimerCfg) (t : TimerSlot) : TimerSlot :=
  if k.scale ≤ t.c + 1#64 then { t with c := 0#64, v := t.v + 1#64 } else { t with c := t.c + 1#64 }

/-- The tick of an on-delay timer (46_sequencer.md R190). -/
def tickTimer (k : TimerCfg) (t : TimerSlot) : TimerSlot :=
  if !t.start then { t with c := 0#64, v := 0#64, q := false }
  else if k.preset ≤ t.v then { t with q := true }
  else
    let u := timerCount k t
    if k.preset ≤ u.v then { u with q := true } else u

/-- The tick of a blinker (46_sequencer.md R197). -/
def tickBlinker (scale : U64) (b : BlinkerSlot) : BlinkerSlot :=
  if scale ≤ b.c + 1#64 then ⟨0#64, !b.q⟩ else ⟨b.c + 1#64, b.q⟩

/-- The tick of a counter, with the pulse at the end of the previous scan (46_sequencer.md R200). The count wraps
modulo 2^64 (R201). -/
def tickCounter (down prevPulse : Bool) (x : MemSlot) : MemSlot :=
  if risingEdge x.pulse prevPulse then
    { x with edge := true, v := if down then x.v - 1#64 else x.v + 1#64 }
  else { x with edge := false }

/-- Every timer, blinker and counter steps once. -/
def Bank.tick (c : Cfg) (prev b : Bank) : Bank :=
  { b with
    t := b.t.mapIdx fun i x => tickTimer (timerCfgAt c i) x
    b := b.b.mapIdx fun i x => tickBlinker (blinkerScaleAt c i) x
    m := b.m.mapIdx fun i x => tickCounter (memDown c i) (prev.mAt i).pulse x }

/-- An off-delay timer is configured. -/
def hasOffDelay (c : Cfg) : Bool := c.t.any fun k => !k.onDelay

/-- Phase 2b: the sequencer steps if and only if the controller is RUNNING at that point (46_sequencer.md R185).
With an off-delay timer, whose rule is open and which reset refuses (R195), there is no tick to model. -/
def tickPhase (s : State) : Host.Outcome State Fault Refusal :=
  match s.ctl.state with
  | .running =>
    if hasOffDelay s.cfg then .refused .offDelayTimer
    else .next (s.setBank (Bank.tick s.cfg s.prev.bank s.bank))
  | .stopped => .next s
  | .terminated => .next s

end Sys2Proof.Machine
end

