-- ==== Sys2Proof/Machine/Scan.lean ====
section
/-! DEFINITION. The rung engine's fetch (spec/47_rung_and_scan.md R211), the step limit (R213), and the phases of
the scan as steps (R220). The step that runs an instruction is in Step.lean, which calls these. -/

namespace Sys2Proof.Machine

open Sys2Proof

/-- What a fetch finds. -/
inductive Fetched where
  /-- `PC == LEN[RI]`: the rung completes with success. -/
  | complete
  /-- The word at `PC`. -/
  | word (w : Word)
  /-- No word: only in states that no run reaches. -/
  | fault (f : Fault)
  deriving DecidableEq, Repr

/-- `IMEM[a]`: `MemRead(4a, 4)` of the program store (20_memory.md R62). -/
def Program.word (p : Program) (a : Nat) : Word := BitVec.ofNat 32 (p.imem.readBE (4 * a) 4)

/-- The fetch at `PC` of rung `RI` (47_rung_and_scan.md R211). -/
def fetch (s : State) : Fetched :=
  match s.prog.rungs[s.eng.ri]? with
  | none => .fault .noSuchRung
  | some r =>
    if s.eng.pc.toNat = r.len then .complete
    else if r.base + s.eng.pc.toNat < s.prog.words then .word (s.prog.word (r.base + s.eng.pc.toNat))
    else .fault .fetchOutsideStore

/-- RUNG_STEP_LIMIT is reached: the next word must not execute (47_rung_and_scan.md R213). -/
def limitReached (s : State) : Bool := decide (s.cfg.rungStepLimit = some s.eng.steps)

/-- `STEPS <- STEPS + 1`, only where RUNG_STEP_LIMIT is a number (47_rung_and_scan.md R213, 10_state.md R43). -/
def countStep (s : State) : State :=
  match s.cfg.rungStepLimit with
  | none => s
  | some _ => { s with eng := { s.eng with steps := s.eng.steps + 1 } }

/-- The rung completes with success: the loop goes on with the next rung (47_rung_and_scan.md R214, R220). That `RI` is
raised here, past the last rung too, is the model's (DESIGN CHOICE, log entry 12). `ACC` keeps its last value until the
next rung starts, where R210 makes it EMPTY: R210 calls it "discarded afterward" and no rule writes it here (DESIGN
CHOICE, log entry 19). -/
def finishRung (s : State) : State :=
  { s with eng := { s.eng with ri := s.eng.ri + 1 }, phase := .execute }

/-- The start of the next scan, if the host has one to start (47_rung_and_scan.md R222): a set SHUTDOWN_REQ ends
it at once and no phase of it runs; otherwise its raw inputs and host operations are taken over. -/
def beginScan (s : State) : State :=
  match s.pending with
  | [] => s
  | x :: rest =>
    if s.ctl.shutdownReq then { s with ctl := { s.ctl with state := .terminated }, pending := rest }
    else { s with rawDI := x.rawDI, rawAI := x.rawAI, hostOps := x.ops, pending := rest, phase := .decode }

/-- Phase 0 (47_rung_and_scan.md R220). In TERMINATED no scan happens: the run has ended. -/
def stepBoundary (s : State) : Host.Outcome State Fault Refusal :=
  match s.ctl.state with
  | .terminated => .fault .runEnded
  | .stopped => .next (beginScan s)
  | .running => .next (beginScan s)

/-- Phase 1, and on to phase 2 at rung 0. That `RI` becomes 0 with this step is the model's (DESIGN CHOICE, log
entry 12). -/
def stepDecode (s : State) : State :=
  { decodePhase s with eng := { s.eng with ri := 0 }, phase := .execute }

/-- The head of the loop of phase 2: rung `RI` starts if the controller is RUNNING and there is such a rung;
otherwise the scan goes on at phase 2b (47_rung_and_scan.md R220). -/
def stepLoop (s : State) : State :=
  if s.ctl.state = .running ∧ s.eng.ri < s.prog.rungs.length then s.startRung s.eng.ri else s.enter .tick

/-- Phase 2b, and on to phase 3. -/
def stepTick (s : State) : Host.Outcome State Fault Refusal :=
  match tickPhase s with
  | .next s' => .next (s'.enter .encode)
  | .fault f => .fault f
  | .refused r => .refused r

/-- Phase 3, and on to phase 4. -/
def stepEncode (s : State) : State := (encodePhase s).enter .delta

/-- Phase 4, and on to phase 5. -/
def stepDelta (s : State) : State := (deltaPhase s).enter .host

/-- Phase 5, the end of the scan (47_rung_and_scan.md R223). -/
def stepHost (s : State) : State := (hostPhase s).enter .boundary

end Sys2Proof.Machine
end

