-- ==== Sys2Proof/Machine/Step.lean ====
section
/-! DEFINITION. The one step of the machine: a phase of the scan (spec/47_rung_and_scan.md R220) or, inside a rung,
one fetch with what it leads to (R211 to R214). -/

namespace Sys2Proof.Machine

open Sys2Proof

/-- What a fetched word leads to (47_rung_and_scan.md R212, R213): the step limit is checked first; then the word is
decoded, and its static verdict raised or its instruction executed. -/
def runWord (w : Word) (s : State) : Host.Outcome State Fault Refusal :=
  if limitReached s then .next (s.raise .badProg w)
  else
    match decodeWord w with
    | .error e => .next ((countStep s).raise e w)
    | .ok i => exec i (countStep s)

/-- One step inside a rung (47_rung_and_scan.md R211). -/
def stepRung (s : State) : Host.Outcome State Fault Refusal :=
  match fetch s with
  | .complete => .next (finishRung s)
  | .word w => runWord w s
  | .fault f => .fault f

/-- One step of the machine. -/
def step (s : State) : Host.Outcome State Fault Refusal :=
  match s.phase with
  | .boundary => stepBoundary s
  | .decode => .next (stepDecode s)
  | .execute => .next (stepLoop s)
  | .rung => stepRung s
  | .tick => stepTick s
  | .encode => .next (stepEncode s)
  | .delta => .next (stepDelta s)
  | .host => .next (stepHost s)

/-- The state with an instruction stored where the next step fetches it: a program of one rung that holds the one
word, and the scan inside that rung, at its first instruction, in a RUNNING controller. -/
def State.withFetchWord (s : State) (nbits w : Nat) : State :=
  { s with
    prog := ⟨Memory.writeBE [] 0 4 (w % 2 ^ nbits % 2 ^ 32), 1, [⟨0, 1⟩]⟩
    ctl := { s.ctl with state := .running }
    eng := { s.eng with ri := 0, pc := 0#25, steps := 0 }
    phase := .rung }

end Sys2Proof.Machine
end

