-- ==== Sys2Proof/Machine/Boot.lean ====
section
/-! DEFINITION. Reset with a configuration and a program (spec/70_reset_and_hazards.md R280), and the checks by
which it refuses them (R281), each a Bool of its own. Reset does not check the instruction words. -/

namespace Sys2Proof.Machine

open Sys2Proof

/-- 2^24, the bound of every count (00_scope.md R9, R10). -/
def countLimit : Nat := 2 ^ 24

/-- No slot count is above 2^24 (R281). -/
def slotCountsOk (c : Cfg) : Bool :=
  decide (c.nDI ≤ countLimit) && decide (c.nDO ≤ countLimit) && decide (c.ai.length ≤ countLimit)
    && decide (c.ao.length ≤ countLimit) && decide (c.m.length ≤ countLimit) && decide (c.mr.length ≤ countLimit)
    && decide (c.t.length ≤ countLimit) && decide (c.b.length ≤ countLimit)

/-- A rung is at most 2^24 instructions long and lies inside the store (R281). -/
def rungOk (words : Nat) (r : Rung) : Bool := decide (r.len ≤ countLimit) && decide (r.base + r.len ≤ words)

/-- MAX_RUNGS, the number of rungs and every rung are within their bounds (R281). -/
def programSizeOk (c : Cfg) (p : Program) : Bool :=
  decide (c.maxRungs ≤ countLimit) && decide (p.rungs.length ≤ c.maxRungs) && p.rungs.all (rungOk p.words)

/-- Every scale is at least 1 (R281). -/
def scalesOk (c : Cfg) : Bool := (c.t.all fun k => k.scale != 0#64) && (c.b.all fun x => x != 0#64)

/-- Every timer is an on-delay timer (R281, 46_sequencer.md R195). -/
def onDelayOk (c : Cfg) : Bool := c.t.all fun k => k.onDelay

/-- `MIN < MAX` holds and `MAX - MIN` is finite (R281). -/
def rangeOk (r : Range) : Bool := F64.lt r.min r.max && (F64.sub r.max r.min).isFinite

/-- Every analog slot has a range (R281). -/
def rangesOk (c : Cfg) : Bool := c.ai.all rangeOk && c.ao.all rangeOk

/-- ANALOG_BITS is in 1 .. 64, REAL_EPSILON is neither negative nor a NaN, RUNG_STEP_LIMIT is not 0 (R281). -/
def parametersOk (c : Cfg) : Bool :=
  decide (1 ≤ c.analogBits) && decide (c.analogBits ≤ 64) && F64.le F64.zero c.realEpsilon
    && decide (c.rungStepLimit ≠ some 0)

/-- The first check that a configuration and a program fail; `none` when reset accepts them (R281). -/
def configFlaw (c : Cfg) (p : Program) : Option ConfigFlaw :=
  if !slotCountsOk c then some .slotCount
  else if !programSizeOk c p then some .programSize
  else if !scalesOk c then some .zeroScale
  else if !onDelayOk c then some .offDelay
  else if !rangesOk c then some .analogRange
  else if !parametersOk c then some .parameter
  else none

/-- Reset (70_reset_and_hazards.md R280): refused, or the machine at its reset values. -/
def boot (c : Cfg) (p : Program) : Host.Outcome State Fault Refusal :=
  match configFlaw c p with
  | some f => .refused (.badConfig f)
  | none => .next (State.ofConfig c p)

end Sys2Proof.Machine
end

