-- ==== Sys2Proof/Safety.lean ====
section
/-! DEFINITION. What a run keeps: the invariant of the machine, each clause from a rule of the spec, and what a safe
outcome of a step is. -/

namespace Sys2Proof.Machine

open Sys2Proof

/-- The bank has exactly the slots of the configuration: "no slot is added or removed afterwards" (10_state.md
R20). -/
abbrev SizedBank (c : Cfg) (b : Bank) : Prop :=
  b.di.length = c.nDI ∧ b.dout.length = c.nDO ∧ b.ai.length = c.ai.length ∧ b.ao.length = c.ao.length
    ∧ b.m.length = c.m.length ∧ b.mr.length = c.mr.length ∧ b.t.length = c.t.length ∧ b.b.length = c.b.length

/-- The forcing registers are one per channel (10_state.md R30, R31). -/
abbrev SizedForcing (c : Cfg) (f : Forcing) : Prop :=
  f.di.length = c.nDI ∧ f.dout.length = c.nDO ∧ f.ai.length = c.ai.length ∧ f.ao.length = c.ao.length

/-- The bank, PREV and the forcing registers have the sizes of the configuration. -/
abbrev Sized (s : State) : Prop :=
  SizedBank s.cfg s.bank ∧ SizedBank s.cfg s.prev.bank ∧ SizedForcing s.cfg s.force

/-- Reset would accept the configuration and the program (70_reset_and_hazards.md R281). -/
abbrev Accepted (s : State) : Prop := configFlaw s.cfg s.prog = none

/-- The program store and the raw output buffers are in canonical form. -/
abbrev Canonical (s : State) : Prop :=
  s.prog.imem.wf = true ∧ Memory.wf s.rawDO = true ∧ Memory.wf s.rawAO = true

/-- The raw output buffers list no byte outside their sizes (20_memory.md R66). -/
abbrev BuffersInRange (s : State) : Prop :=
  (s.rawDO.all fun x => decide (x.1 < bitBytes s.cfg.nDO)) = true
    ∧ (s.rawAO.all fun x => decide (x.1 < 8 * s.cfg.ao.length)) = true

/-- Inside a rung the controller is RUNNING (10_state.md R35), `RI` names a rung (R41), `PC` is in
`0 .. LEN[RI]` (R42), and STEPS is within RUNG_STEP_LIMIT (R43). -/
abbrev EngineOk (s : State) : Prop :=
  s.phase = .rung →
    s.ctl.state = .running ∧ s.eng.ri < s.prog.rungs.length ∧ s.eng.pc.toNat ≤ s.rungLen
      ∧ (s.cfg.rungStepLimit.all fun n => decide (s.eng.steps ≤ n)) = true

/-- The error kinds an instruction can raise: 3, 4, 5, 6 and 9 (60_exceptions.md R250). -/
def raisable : ErrorKind → Bool
  | .badOperand => true
  | .badIndex => true
  | .badCoil => true
  | .badOperator => true
  | .badProg => true
  | .badChar => false
  | .badFile => false
  | .timeout => false
  | .overflow => false

/-- TERMINATED is seen only between scans, a RUNNING controller has no error latched (47_rung_and_scan.md R230,
60_exceptions.md R255), and no error is latched that the block never raises (60_exceptions.md R250). -/
abbrev ControllerOk (s : State) : Prop :=
  (s.ctl.state = .terminated → s.phase = .boundary) ∧ (s.ctl.state = .running → s.ctl.err = none)
    ∧ s.ctl.err.all raisable = true

/-- `RE` only of an input that is 1, `FE` only of an input that is 0; so never both (40_io_codec.md R102). -/
abbrev EdgesOk (b : Bank) : Prop := ∀ d ∈ b.di, (d.re = true → d.i = true) ∧ (d.fe = true → d.i = false)

/-- `V` never exceeds `P`, `C` stays below `S`, and `Q` is 1 only with `V == P` (46_sequencer.md R190, R191). -/
abbrev TimersOk (c : Cfg) (b : Bank) : Prop :=
  ∀ i, i < c.t.length →
    (b.tAt i).v ≤ (timerCfgAt c i).preset ∧ (b.tAt i).c < (timerCfgAt c i).scale
      ∧ ((b.tAt i).q = true → (b.tAt i).v = (timerCfgAt c i).preset)

/-- `C` of a blinker stays below its scale (46_sequencer.md R197, R198). -/
abbrev BlinkersOk (c : Cfg) (b : Bank) : Prop := ∀ i, i < c.b.length → (b.bAt i).c < blinkerScaleAt c i

/-- A read-only slot keeps its configured value, and a read-only counter never counts (10_state.md R32,
46_sequencer.md R202). -/
abbrev ReadOnlyOk (c : Cfg) (b : Bank) : Prop :=
  (∀ i, i < c.m.length → memRo c i = true → b.mAt i = (Bank.reset c).mAt i)
    ∧ (∀ i, i < c.mr.length → realMemRo c i = true → b.mrAt i = (Bank.reset c).mrAt i)

/-- The invariant of the machine. -/
abbrev Inv (s : State) : Prop :=
  Accepted s ∧ Sized s ∧ Canonical s ∧ BuffersInRange s ∧ EngineOk s ∧ ControllerOk s ∧ EdgesOk s.bank
    ∧ TimersOk s.cfg s.bank ∧ BlinkersOk s.cfg s.bank ∧ ReadOnlyOk s.cfg s.bank

/-- A safe outcome of a step from `s`: a next state, or the end of the run in TERMINATED (47_rung_and_scan.md R223).
No other fault and no refusal. -/
def SafeOutcome (s : State) : Host.Outcome State Fault Refusal → Prop
  | .next _ => True
  | .fault .runEnded => s.phase = .boundary ∧ s.ctl.state = .terminated
  | .fault .noSuchRung => False
  | .fault .fetchOutsideStore => False
  | .refused _ => False

/-! ### The check order of 60_exceptions.md R251, written from its table on the fields of the word -/

/-- `count(K)` by the number of the kind (30_encoding.md R82); 0 for a reserved kind, which has no slot. -/
def slotCount (c : Cfg) (kind : Nat) : Nat :=
  match kind with
  | 0 => c.nDI
  | 1 => c.nDI
  | 2 => c.nDI
  | 3 => c.nDO
  | 4 => c.ai.length
  | 5 => c.ao.length
  | 6 => c.m.length
  | 7 => c.mr.length
  | 8 => c.t.length
  | _ => 0

/-- The checks of 60_exceptions.md R251 for the word `w`, in the order of its steps 1, 2, 2J, 3, 4, 4J, 5 and 7, each
with the error it reports. Step 6 is the condition `attempted` of step 7: a ST always attempts its write, a SET or
RST only when `truth(ACC)` is true. -/
def checkList (w : Word) (s : State) : List (Bool × ErrorKind) :=
  let op := w.toNat / 2 ^ 28
  let kind := w.toNat / 2 ^ 24 % 16
  let i := w.toNat % 2 ^ 24
  let slotOp := decide (op ≤ 7)
  let writeOp := decide (5 ≤ op) && decide (op ≤ 7)
  let admitted := decide (kind = 3) || decide (kind = 5) || decide (kind = 6) || decide (kind = 7)
    || (decide (kind = 8) && decide (op ≠ 5))
  let attempted :=
    match s.eng.acc with
    | .empty => false
    | .val v => decide (op = 5) || truth s.cfg.realEpsilon v
  let ro := (decide (kind = 6) && memRo s.cfg i) || (decide (kind = 7) && realMemRo s.cfg i)
  [(decide (9 ≤ op), .badOperator),
   (slotOp && decide (9 ≤ kind), .badOperand),
   (decide (op = 8) && decide (kind ≠ 0), .badOperand),
   (writeOp && decide (kind ≤ 8) && !admitted, .badCoil),
   (slotOp && decide (slotCount s.cfg kind ≤ i), .badIndex),
   (decide (op = 8) && decide (s.rungLen ≤ i), .badProg),
   (decide (op ≠ 0) && decide (s.eng.acc = .empty), .badProg),
   (writeOp && attempted && ro, .badOperand)]

/-- The error of the first check that fails; `none` when none fails. -/
def firstFailure (w : Word) (s : State) : Option ErrorKind :=
  ((checkList w s).find? fun c => c.1).map fun c => c.2

/-- What no step may change: the configuration (10_state.md R33) and the program store (20_memory.md R61). -/
abbrev SameParameters (s t : State) : Prop := t.cfg = s.cfg ∧ t.prog = s.prog

end Sys2Proof.Machine
end

