-- ==== Sys2Proof/Certificates/Slice0/Obligations.lean ====
section
/-! DEFINITION. The statements for the provers. Each is described in OBLIGATIONS.json under its name; the docstring
names the rules of the spec it formalises. -/

open Sys2Proof Sys2Proof.Machine

/-- Decoding the encoding of an instruction gives the instruction, for all sixty and every INDEX (30_encoding.md R80, 30_encoding.md R90). -/
def Obligations.DecodeOfEncodeReturnsTheInstruction : Prop :=
  ∀ i : Instr, decodeWord (encode i) = .ok i

/-- A word that decodes to an instruction is that instruction's encoding: no bit is dropped (30_encoding.md R80). -/
def Obligations.EncodeOfDecodeReturnsTheWord : Prop :=
  ∀ (w : Word) (i : Instr), decodeWord w = .ok i → encode i = w

/-- Every instruction is exactly one 32-bit word: its four bytes decode to it and the bytes after them are left (R89). -/
def Obligations.EncodedBytesDecodeAndLeaveTheRest : Prop :=
  ∀ (i : Instr) (rest : List Byte),
    decodeBytes (bytesOfWord (encode i) ++ rest) = .ok (i, rest)
    ∧ (rest.length < 4 → decodeBytes rest = .error .truncated)

/-- Every word is a valid combination or carries exactly one static verdict, by its OP and KIND fields (30_encoding.md R83, 30_encoding.md R86, 30_encoding.md R87, 30_encoding.md R88, 47_rung_and_scan.md R213, 60_exceptions.md R255). -/
def Obligations.StaticVerdictOfEveryWord : Prop :=
  (∀ w : Word,
    let op := w.toNat / 2 ^ 28
    let kind := w.toNat / 2 ^ 24 % 16
    let admitted := op ≤ 4 ∨ kind = 3 ∨ kind = 5 ∨ kind = 6 ∨ kind = 7 ∨ (kind = 8 ∧ op ≠ 5)
    (9 ≤ op → decodeWord w = .error .badOperator)
    ∧ (op = 8 → kind = 0 → decodeWord w = .ok (.jmp (BitVec.ofNat 24 w.toNat)))
    ∧ (op = 8 → kind ≠ 0 → decodeWord w = .error .badOperand)
    ∧ (op ≤ 7 → 9 ≤ kind → decodeWord w = .error .badOperand)
    ∧ (op ≤ 7 → kind ≤ 8 → ¬ admitted → decodeWord w = .error .badCoil)
    ∧ (op ≤ 7 → kind ≤ 8 → admitted →
        ∃ i k, decodeWord w = .ok i ∧ i.slotKind = some k ∧ kindOf (BitVec.ofNat 4 kind) = some k
          ∧ i.index.toNat = w.toNat % 2 ^ 24))
  ∧ (∀ (w : Word) (s : State) (e : ErrorKind), decodeWord w = .error e → limitReached s = false →
      runWord w s = .next ((countStep s).raise e w))

/-- The sixty encodings: the top byte of the list, then the 24-bit INDEX (R90). -/
def Obligations.EncodingsAreTheSpecsList : Prop :=
  ∀ i : Index,
    (encode (.ldDi i)).toNat = 0x00 * 2 ^ 24 + i.toNat
    ∧ (encode (.ldRe i)).toNat = 0x01 * 2 ^ 24 + i.toNat
    ∧ (encode (.ldFe i)).toNat = 0x02 * 2 ^ 24 + i.toNat
    ∧ (encode (.ldDo i)).toNat = 0x03 * 2 ^ 24 + i.toNat
    ∧ (encode (.ldAi i)).toNat = 0x04 * 2 ^ 24 + i.toNat
    ∧ (encode (.ldAo i)).toNat = 0x05 * 2 ^ 24 + i.toNat
    ∧ (encode (.ldM i)).toNat = 0x06 * 2 ^ 24 + i.toNat
    ∧ (encode (.ldMr i)).toNat = 0x07 * 2 ^ 24 + i.toNat
    ∧ (encode (.ldT i)).toNat = 0x08 * 2 ^ 24 + i.toNat
    ∧ (encode (.andDi i)).toNat = 0x10 * 2 ^ 24 + i.toNat
    ∧ (encode (.andRe i)).toNat = 0x11 * 2 ^ 24 + i.toNat
    ∧ (encode (.andFe i)).toNat = 0x12 * 2 ^ 24 + i.toNat
    ∧ (encode (.andDo i)).toNat = 0x13 * 2 ^ 24 + i.toNat
    ∧ (encode (.andAi i)).toNat = 0x14 * 2 ^ 24 + i.toNat
    ∧ (encode (.andAo i)).toNat = 0x15 * 2 ^ 24 + i.toNat
    ∧ (encode (.andM i)).toNat = 0x16 * 2 ^ 24 + i.toNat
    ∧ (encode (.andMr i)).toNat = 0x17 * 2 ^ 24 + i.toNat
    ∧ (encode (.andT i)).toNat = 0x18 * 2 ^ 24 + i.toNat
    ∧ (encode (.orDi i)).toNat = 0x20 * 2 ^ 24 + i.toNat
    ∧ (encode (.orRe i)).toNat = 0x21 * 2 ^ 24 + i.toNat
    ∧ (encode (.orFe i)).toNat = 0x22 * 2 ^ 24 + i.toNat
    ∧ (encode (.orDo i)).toNat = 0x23 * 2 ^ 24 + i.toNat
    ∧ (encode (.orAi i)).toNat = 0x24 * 2 ^ 24 + i.toNat
    ∧ (encode (.orAo i)).toNat = 0x25 * 2 ^ 24 + i.toNat
    ∧ (encode (.orM i)).toNat = 0x26 * 2 ^ 24 + i.toNat
    ∧ (encode (.orMr i)).toNat = 0x27 * 2 ^ 24 + i.toNat
    ∧ (encode (.orT i)).toNat = 0x28 * 2 ^ 24 + i.toNat
    ∧ (encode (.andnDi i)).toNat = 0x30 * 2 ^ 24 + i.toNat
    ∧ (encode (.andnRe i)).toNat = 0x31 * 2 ^ 24 + i.toNat
    ∧ (encode (.andnFe i)).toNat = 0x32 * 2 ^ 24 + i.toNat
    ∧ (encode (.andnDo i)).toNat = 0x33 * 2 ^ 24 + i.toNat
    ∧ (encode (.andnAi i)).toNat = 0x34 * 2 ^ 24 + i.toNat
    ∧ (encode (.andnAo i)).toNat = 0x35 * 2 ^ 24 + i.toNat
    ∧ (encode (.andnM i)).toNat = 0x36 * 2 ^ 24 + i.toNat
    ∧ (encode (.andnMr i)).toNat = 0x37 * 2 ^ 24 + i.toNat
    ∧ (encode (.andnT i)).toNat = 0x38 * 2 ^ 24 + i.toNat
    ∧ (encode (.ornDi i)).toNat = 0x40 * 2 ^ 24 + i.toNat
    ∧ (encode (.ornRe i)).toNat = 0x41 * 2 ^ 24 + i.toNat
    ∧ (encode (.ornFe i)).toNat = 0x42 * 2 ^ 24 + i.toNat
    ∧ (encode (.ornDo i)).toNat = 0x43 * 2 ^ 24 + i.toNat
    ∧ (encode (.ornAi i)).toNat = 0x44 * 2 ^ 24 + i.toNat
    ∧ (encode (.ornAo i)).toNat = 0x45 * 2 ^ 24 + i.toNat
    ∧ (encode (.ornM i)).toNat = 0x46 * 2 ^ 24 + i.toNat
    ∧ (encode (.ornMr i)).toNat = 0x47 * 2 ^ 24 + i.toNat
    ∧ (encode (.ornT i)).toNat = 0x48 * 2 ^ 24 + i.toNat
    ∧ (encode (.stDo i)).toNat = 0x53 * 2 ^ 24 + i.toNat
    ∧ (encode (.stAo i)).toNat = 0x55 * 2 ^ 24 + i.toNat
    ∧ (encode (.stM i)).toNat = 0x56 * 2 ^ 24 + i.toNat
    ∧ (encode (.stMr i)).toNat = 0x57 * 2 ^ 24 + i.toNat
    ∧ (encode (.setDo i)).toNat = 0x63 * 2 ^ 24 + i.toNat
    ∧ (encode (.setAo i)).toNat = 0x65 * 2 ^ 24 + i.toNat
    ∧ (encode (.setM i)).toNat = 0x66 * 2 ^ 24 + i.toNat
    ∧ (encode (.setMr i)).toNat = 0x67 * 2 ^ 24 + i.toNat
    ∧ (encode (.setT i)).toNat = 0x68 * 2 ^ 24 + i.toNat
    ∧ (encode (.rstDo i)).toNat = 0x73 * 2 ^ 24 + i.toNat
    ∧ (encode (.rstAo i)).toNat = 0x75 * 2 ^ 24 + i.toNat
    ∧ (encode (.rstM i)).toNat = 0x76 * 2 ^ 24 + i.toNat
    ∧ (encode (.rstMr i)).toNat = 0x77 * 2 ^ 24 + i.toNat
    ∧ (encode (.rstT i)).toNat = 0x78 * 2 ^ 24 + i.toNat
    ∧ (encode (.jmp i)).toNat = 0x80 * 2 ^ 24 + i.toNat

/-- The ten example words of R93 decode to their instructions, and back (R93). -/
def Obligations.SpecExampleWordsDecodeAndEncode : Prop :=
  decodeWord 0x00000000#32 = .ok (.ldDi 0#24) ∧ encode (.ldDi 0#24) = 0x00000000#32
    ∧ decodeWord 0x53000000#32 = .ok (.stDo 0#24) ∧ encode (.stDo 0#24) = 0x53000000#32
    ∧ decodeWord 0x02000000#32 = .ok (.ldFe 0#24) ∧ encode (.ldFe 0#24) = 0x02000000#32
    ∧ decodeWord 0x68000000#32 = .ok (.setT 0#24) ∧ encode (.setT 0#24) = 0x68000000#32
    ∧ decodeWord 0x78000000#32 = .ok (.rstT 0#24) ∧ encode (.rstT 0#24) = 0x78000000#32
    ∧ decodeWord 0x08000000#32 = .ok (.ldT 0#24) ∧ encode (.ldT 0#24) = 0x08000000#32
    ∧ decodeWord 0x53000001#32 = .ok (.stDo 1#24) ∧ encode (.stDo 1#24) = 0x53000001#32
    ∧ decodeWord 0x31000003#32 = .ok (.andnRe 3#24) ∧ encode (.andnRe 3#24) = 0x31000003#32
    ∧ decodeWord 0x80000005#32 = .ok (.jmp 5#24) ∧ encode (.jmp 5#24) = 0x80000005#32
    ∧ decodeWord 0x56123456#32 = .ok (.stM 0x123456#24) ∧ encode (.stM 0x123456#24) = 0x56123456#32

/-- MemWrite lays the most significant byte lowest, MemRead reads it back, other bytes stay (R63). -/
def Obligations.BigEndianWritesAndReads : Prop :=
  (∀ (m : Memory) (a n v : Nat), m.wf = true →
      (∀ j, j < n → (m.writeBE a n v).read (a + j) = BitVec.ofNat 8 (v / 256 ^ (n - 1 - j)))
      ∧ (∀ c, c < a ∨ a + n ≤ c → (m.writeBE a n v).read c = m.read c)
      ∧ (m.writeBE a n v).readBE a n = v % 256 ^ n)
  ∧ (∀ (m : Memory) (a n : Nat),
      m.readBE a (n + 1) = m.readBE a n * 256 + (m.read (a + n)).toNat)

/-- Inside a rung, a step fetches the word at PC and runs exec of the instruction it decodes to (47_rung_and_scan.md R211, 47_rung_and_scan.md R212). -/
def Obligations.StepRunsTheDecodedInstruction : Prop :=
  ∀ (s : State) (r : Rung) (i : Instr),
    s.phase = .rung → s.prog.rungs[s.eng.ri]? = some r →
    s.eng.pc.toNat < r.len → r.base + s.eng.pc.toNat < s.prog.words →
    s.cfg.rungStepLimit ≠ some s.eng.steps →
    decodeWord (BitVec.ofNat 32 (s.prog.imem.readBE (4 * (r.base + s.eng.pc.toNat)) 4)) = .ok i →
    step s = exec i { s with eng := { s.eng with steps := if s.cfg.rungStepLimit = none then s.eng.steps else s.eng.steps + 1 } }

/-- Inside a rung, a fetched word that is no instruction raises its verdict, and at STEPS = RUNG_STEP_LIMIT any word raises ERR_BAD_PROG (30_encoding.md R86, 30_encoding.md R87, 47_rung_and_scan.md R213, 60_exceptions.md R255). -/
def Obligations.StepRaisesTheVerdictOrTheStepLimit : Prop :=
  (∀ (s : State) (r : Rung) (e : ErrorKind),
    s.phase = .rung → s.prog.rungs[s.eng.ri]? = some r →
    s.eng.pc.toNat < r.len → r.base + s.eng.pc.toNat < s.prog.words →
    s.cfg.rungStepLimit ≠ some s.eng.steps →
    decodeWord (BitVec.ofNat 32 (s.prog.imem.readBE (4 * (r.base + s.eng.pc.toNat)) 4)) = .error e →
    step s = .next { s with
      ctl := ⟨.stopped, s.ctl.shutdownReq, some e, BitVec.ofNat 32 s.eng.ri, s.eng.pc.setWidth 32,
        BitVec.ofNat 32 (s.prog.imem.readBE (4 * (r.base + s.eng.pc.toNat)) 4), s.ctl.delta⟩
      eng := ⟨.empty, s.eng.ri, s.eng.pc, if s.cfg.rungStepLimit = none then s.eng.steps else s.eng.steps + 1⟩
      phase := .tick })
  ∧ (∀ (s : State) (r : Rung),
    s.phase = .rung → s.prog.rungs[s.eng.ri]? = some r →
    s.eng.pc.toNat < r.len → r.base + s.eng.pc.toNat < s.prog.words →
    s.cfg.rungStepLimit = some s.eng.steps →
    step s = .next { s with
      ctl := ⟨.stopped, s.ctl.shutdownReq, some .badProg, BitVec.ofNat 32 s.eng.ri, s.eng.pc.setWidth 32,
        BitVec.ofNat 32 (s.prog.imem.readBE (4 * (r.base + s.eng.pc.toNat)) 4), s.ctl.delta⟩
      eng := ⟨.empty, s.eng.ri, s.eng.pc, s.eng.steps⟩
      phase := .tick })

/-- The loop over the rungs: a rung starts with ACC EMPTY, PC 0, STEPS 0; at PC = LEN the next rung follows (47_rung_and_scan.md R210, 47_rung_and_scan.md R211, 47_rung_and_scan.md R214, 47_rung_and_scan.md R220). The model's choices: the completion as a step of its own (log entry 4), RI raised by one at it, past the last rung too (log entry 12), ACC kept until the next rung start (log entry 19). -/
def Obligations.RungsStartAndCompleteInOrder : Prop :=
  ∀ s : State,
    (s.phase = .execute → s.ctl.state = .running → s.eng.ri < s.prog.rungs.length →
      step s = .next { s with eng := ⟨.empty, s.eng.ri, 0#25, 0⟩, phase := .rung })
    ∧ (s.phase = .execute → (s.ctl.state ≠ .running ∨ s.prog.rungs.length ≤ s.eng.ri) →
      step s = .next { s with phase := .tick })
    ∧ (∀ r, s.phase = .rung → s.prog.rungs[s.eng.ri]? = some r → s.eng.pc.toNat = r.len →
      step s = .next { s with eng := { s.eng with ri := s.eng.ri + 1 }, phase := .execute })

/-- Phase 0: a set SHUTDOWN_REQ ends the scan in TERMINATED before any phase; else the scan begins; TERMINATED ends the run (47_rung_and_scan.md R220 phase 0, 60_exceptions.md R263). The model's choices: the list of scans and the wait (log entry 2), the operations taken over with the inputs (log entry 8), the fault runEnded (log entry 11, DEDUCED). -/
def Obligations.ShutdownWinsAtTheBoundary : Prop :=
  ∀ s : State, s.phase = .boundary →
    (s.ctl.state = .terminated → step s = .fault .runEnded)
    ∧ (s.ctl.state ≠ .terminated → s.pending = [] → step s = .next s)
    ∧ (∀ x rest, s.ctl.state ≠ .terminated → s.pending = x :: rest → s.ctl.shutdownReq = true →
        step s = .next { s with ctl := { s.ctl with state := .terminated }, pending := rest })
    ∧ (∀ x rest, s.ctl.state ≠ .terminated → s.pending = x :: rest → s.ctl.shutdownReq = false →
        step s = .next { s with
          rawDI := x.rawDI, rawAI := x.rawAI, hostOps := x.ops, pending := rest, phase := .decode })

/-- A step enters TERMINATED only at phase 0 with SHUTDOWN_REQ set, and no step clears SHUTDOWN_REQ (47_rung_and_scan.md R223, 10_state.md R36). -/
def Obligations.OnlyShutdownLeadsToTerminated : Prop :=
  ∀ s t : State, step s = .next t →
    (t.ctl.state = .terminated → s.ctl.state ≠ .terminated → s.phase = .boundary ∧ s.ctl.shutdownReq = true)
    ∧ (s.ctl.shutdownReq = true → t.ctl.shutdownReq = true)

/-- No step changes the configuration or the program store, not one byte of it (10_state.md R33, 20_memory.md R61). -/
def Obligations.ParametersNeverChange : Prop :=
  ∀ s t : State, step s = .next t →
    t.cfg = s.cfg ∧ t.prog = s.prog ∧ ∀ a, t.prog.imem.read a = s.prog.imem.read a

/-- The hang: a jump to itself with a true accumulator and no step limit leaves the machine in the same state for ever (45_jump.md R180, 70_reset_and_hazards.md R290). -/
def Obligations.SelfJumpNeverEnds : Prop :=
  ∀ (s : State) (r : Rung) (v : Value) (n : Nat),
    s.phase = .rung → s.prog.rungs[s.eng.ri]? = some r →
    s.eng.pc.toNat < r.len → r.base + s.eng.pc.toNat < s.prog.words →
    s.cfg.rungStepLimit = none → s.eng.acc = .val v → truth s.cfg.realEpsilon v = true →
    decodeWord (BitVec.ofNat 32 (s.prog.imem.readBE (4 * (r.base + s.eng.pc.toNat)) 4)) = .ok (.jmp (BitVec.ofNat 24 s.eng.pc.toNat)) →
    s.eng.pc.toNat < 2 ^ 24 →
    Host.Core.run core n s = .next s

/-- LD of each of the nine kinds: ACC becomes the slot's tagged value, PC advances, nothing else changes (R120, R122, R123). -/
def Obligations.LoadsPutTheSlotIntoTheAccumulator : Prop :=
  (∀ (i : Index) (s : State),
    (i.toNat < s.cfg.nDI → exec (.ldDi i) s = .next { s with eng := { s.eng with acc := .val (.bool (s.bank.diAt i.toNat).i), pc := s.eng.pc + 1#25 } })
    ∧ (s.cfg.nDI ≤ i.toNat → exec (.ldDi i) s = .next (s.raise .badIndex (encode (.ldDi i))))
    ∧ (i.toNat < s.cfg.nDI → exec (.ldRe i) s = .next { s with eng := { s.eng with acc := .val (.bool (s.bank.diAt i.toNat).re), pc := s.eng.pc + 1#25 } })
    ∧ (s.cfg.nDI ≤ i.toNat → exec (.ldRe i) s = .next (s.raise .badIndex (encode (.ldRe i))))
    ∧ (i.toNat < s.cfg.nDI → exec (.ldFe i) s = .next { s with eng := { s.eng with acc := .val (.bool (s.bank.diAt i.toNat).fe), pc := s.eng.pc + 1#25 } })
    ∧ (s.cfg.nDI ≤ i.toNat → exec (.ldFe i) s = .next (s.raise .badIndex (encode (.ldFe i))))
    ∧ (i.toNat < s.cfg.nDO → exec (.ldDo i) s = .next { s with eng := { s.eng with acc := .val (.bool (s.bank.doAt i.toNat).q), pc := s.eng.pc + 1#25 } })
    ∧ (s.cfg.nDO ≤ i.toNat → exec (.ldDo i) s = .next (s.raise .badIndex (encode (.ldDo i))))
    ∧ (i.toNat < s.cfg.ai.length → exec (.ldAi i) s = .next { s with eng := { s.eng with acc := .val (.real (s.bank.aiAt i.toNat)), pc := s.eng.pc + 1#25 } })
    ∧ (s.cfg.ai.length ≤ i.toNat → exec (.ldAi i) s = .next (s.raise .badIndex (encode (.ldAi i))))
    ∧ (i.toNat < s.cfg.ao.length → exec (.ldAo i) s = .next { s with eng := { s.eng with acc := .val (.real (s.bank.aoAt i.toNat)), pc := s.eng.pc + 1#25 } })
    ∧ (s.cfg.ao.length ≤ i.toNat → exec (.ldAo i) s = .next (s.raise .badIndex (encode (.ldAo i))))
    ∧ (i.toNat < s.cfg.m.length → exec (.ldM i) s = .next { s with eng := { s.eng with acc := .val (.int (s.bank.mAt i.toNat).v), pc := s.eng.pc + 1#25 } })
    ∧ (s.cfg.m.length ≤ i.toNat → exec (.ldM i) s = .next (s.raise .badIndex (encode (.ldM i))))
    ∧ (i.toNat < s.cfg.mr.length → exec (.ldMr i) s = .next { s with eng := { s.eng with acc := .val (.real (s.bank.mrAt i.toNat)), pc := s.eng.pc + 1#25 } })
    ∧ (s.cfg.mr.length ≤ i.toNat → exec (.ldMr i) s = .next (s.raise .badIndex (encode (.ldMr i))))
    ∧ (i.toNat < s.cfg.t.length → exec (.ldT i) s = .next { s with eng := { s.eng with acc := .val (.bool (s.bank.tAt i.toNat).q), pc := s.eng.pc + 1#25 } })
    ∧ (s.cfg.t.length ≤ i.toNat → exec (.ldT i) s = .next (s.raise .badIndex (encode (.ldT i)))))
  ∧ (∀ w : Word, w.toNat / 2 ^ 28 = 0 → 9 ≤ w.toNat / 2 ^ 24 % 16 → decodeWord w = .error .badOperand)

/-- AND of each of the nine kinds: ACC becomes BOOL(a AND b), PC advances, nothing else changes (R141). -/
def Obligations.AndCombinesTheAccumulatorWithTheSlot : Prop :=
  (∀ (k : Kind) (i : Index) (s : State),
      (∀ a, i.toNat < count s.cfg k → s.eng.acc = .val a →
        exec (Instr.and k i) s = .next { s with eng := { s.eng with acc := .val (.bool (truth s.cfg.realEpsilon a && truth s.cfg.realEpsilon (readOp s.bank k i.toNat))), pc := s.eng.pc + 1#25 } })
      ∧ (count s.cfg k ≤ i.toNat → exec (Instr.and k i) s = .next (s.raise .badIndex (encode (Instr.and k i))))
      ∧ (i.toNat < count s.cfg k → s.eng.acc = .empty →
        exec (Instr.and k i) s = .next (s.raise .badProg (encode (Instr.and k i))))
      ∧ opField (encode (Instr.and k i)) = 1#4 ∧ kindOf (kindField (encode (Instr.and k i))) = some k
      ∧ indexField (encode (Instr.and k i)) = i)
  ∧ (∀ w : Word, w.toNat / 2 ^ 28 = 1 → 9 ≤ w.toNat / 2 ^ 24 % 16 → decodeWord w = .error .badOperand)

/-- OR of each of the nine kinds: ACC becomes BOOL(a OR b), PC advances, nothing else changes (R142). -/
def Obligations.OrCombinesTheAccumulatorWithTheSlot : Prop :=
  (∀ (k : Kind) (i : Index) (s : State),
      (∀ a, i.toNat < count s.cfg k → s.eng.acc = .val a →
        exec (Instr.or k i) s = .next { s with eng := { s.eng with acc := .val (.bool (truth s.cfg.realEpsilon a || truth s.cfg.realEpsilon (readOp s.bank k i.toNat))), pc := s.eng.pc + 1#25 } })
      ∧ (count s.cfg k ≤ i.toNat → exec (Instr.or k i) s = .next (s.raise .badIndex (encode (Instr.or k i))))
      ∧ (i.toNat < count s.cfg k → s.eng.acc = .empty →
        exec (Instr.or k i) s = .next (s.raise .badProg (encode (Instr.or k i))))
      ∧ opField (encode (Instr.or k i)) = 2#4 ∧ kindOf (kindField (encode (Instr.or k i))) = some k
      ∧ indexField (encode (Instr.or k i)) = i)
  ∧ (∀ w : Word, w.toNat / 2 ^ 28 = 2 → 9 ≤ w.toNat / 2 ^ 24 % 16 → decodeWord w = .error .badOperand)

/-- ANDN of each of the nine kinds: ACC becomes BOOL(a AND NOT b), PC advances, nothing else changes (R143). -/
def Obligations.AndnCombinesTheAccumulatorWithTheSlot : Prop :=
  (∀ (k : Kind) (i : Index) (s : State),
      (∀ a, i.toNat < count s.cfg k → s.eng.acc = .val a →
        exec (Instr.andn k i) s = .next { s with eng := { s.eng with acc := .val (.bool (truth s.cfg.realEpsilon a && !truth s.cfg.realEpsilon (readOp s.bank k i.toNat))), pc := s.eng.pc + 1#25 } })
      ∧ (count s.cfg k ≤ i.toNat → exec (Instr.andn k i) s = .next (s.raise .badIndex (encode (Instr.andn k i))))
      ∧ (i.toNat < count s.cfg k → s.eng.acc = .empty →
        exec (Instr.andn k i) s = .next (s.raise .badProg (encode (Instr.andn k i))))
      ∧ opField (encode (Instr.andn k i)) = 3#4 ∧ kindOf (kindField (encode (Instr.andn k i))) = some k
      ∧ indexField (encode (Instr.andn k i)) = i)
  ∧ (∀ w : Word, w.toNat / 2 ^ 28 = 3 → 9 ≤ w.toNat / 2 ^ 24 % 16 → decodeWord w = .error .badOperand)

/-- ORN of each of the nine kinds: ACC becomes BOOL(a OR NOT b), PC advances, nothing else changes (R144). -/
def Obligations.OrnCombinesTheAccumulatorWithTheSlot : Prop :=
  (∀ (k : Kind) (i : Index) (s : State),
      (∀ a, i.toNat < count s.cfg k → s.eng.acc = .val a →
        exec (Instr.orn k i) s = .next { s with eng := { s.eng with acc := .val (.bool (truth s.cfg.realEpsilon a || !truth s.cfg.realEpsilon (readOp s.bank k i.toNat))), pc := s.eng.pc + 1#25 } })
      ∧ (count s.cfg k ≤ i.toNat → exec (Instr.orn k i) s = .next (s.raise .badIndex (encode (Instr.orn k i))))
      ∧ (i.toNat < count s.cfg k → s.eng.acc = .empty →
        exec (Instr.orn k i) s = .next (s.raise .badProg (encode (Instr.orn k i))))
      ∧ opField (encode (Instr.orn k i)) = 4#4 ∧ kindOf (kindField (encode (Instr.orn k i))) = some k
      ∧ indexField (encode (Instr.orn k i)) = i)
  ∧ (∀ w : Word, w.toNat / 2 ^ 28 = 4 → 9 ≤ w.toNat / 2 ^ 24 % 16 → decodeWord w = .error .badOperand)

/-- LD a; OR b; AND c leaves (a OR b) AND c in ACC, and LD then ANDN, ORN of one slot leave 0 and 1 (42_combine.md R145). -/
def Obligations.ChainEvaluatesLeftToRight : Prop :=
  ∀ (ka kb kc : Kind) (ia ib ic : Index) (s : State),
    ia.toNat < count s.cfg ka → ib.toNat < count s.cfg kb → ic.toNat < count s.cfg kc →
    (∃ t u v, exec (Instr.ld ka ia) s = .next t ∧ exec (Instr.or kb ib) t = .next u ∧ exec (Instr.and kc ic) u = .next v
      ∧ v.eng.acc = .val (.bool ((truth s.cfg.realEpsilon (readOp s.bank ka ia.toNat)
          || truth s.cfg.realEpsilon (readOp s.bank kb ib.toNat))
          && truth s.cfg.realEpsilon (readOp s.bank kc ic.toNat))))
    ∧ (∃ t u, exec (Instr.ld ka ia) s = .next t ∧ exec (Instr.andn ka ia) t = .next u
      ∧ u.eng.acc = .val (.bool false))
    ∧ (∃ t u, exec (Instr.ld ka ia) s = .next t ∧ exec (Instr.orn ka ia) t = .next u
      ∧ u.eng.acc = .val (.bool true))

/-- ST DO and ST AO: the slot takes truth(ACC) or toReal(ACC), PC advances, nothing else changes; their errors (R152, R153). -/
def Obligations.StoresToOutputsWriteTheSlot : Prop :=
  ∀ (i : Index) (s : State),
    (∀ v, i.toNat < s.cfg.nDO → s.eng.acc = .val v →
      exec (.stDo i) s = .next { s with
        bank := { s.bank with
          dout := s.bank.dout.set i.toNat
            ⟨truth s.cfg.realEpsilon v, (s.bank.doAt i.toNat).setf, (s.bank.doAt i.toNat).resetf⟩ }
        eng := { s.eng with pc := s.eng.pc + 1#25 } })
    ∧ (s.cfg.nDO ≤ i.toNat → exec (.stDo i) s = .next (s.raise .badIndex (encode (.stDo i))))
    ∧ (i.toNat < s.cfg.nDO → s.eng.acc = .empty → exec (.stDo i) s = .next (s.raise .badProg (encode (.stDo i))))
    ∧ (∀ v, i.toNat < s.cfg.ao.length → s.eng.acc = .val v →
      exec (.stAo i) s = .next { s with
        bank := { s.bank with
          ao := s.bank.ao.set i.toNat (toReal v) }
        eng := { s.eng with pc := s.eng.pc + 1#25 } })
    ∧ (s.cfg.ao.length ≤ i.toNat → exec (.stAo i) s = .next (s.raise .badIndex (encode (.stAo i))))
    ∧ (i.toNat < s.cfg.ao.length → s.eng.acc = .empty → exec (.stAo i) s = .next (s.raise .badProg (encode (.stAo i))))

/-- ST M and ST MR: the slot takes toU64(ACC) or toReal(ACC) unless it is read-only; their errors in order (R154, R155). -/
def Obligations.StoresToMemoryWriteTheSlot : Prop :=
  ∀ (i : Index) (s : State),
    (∀ v, i.toNat < s.cfg.m.length → s.eng.acc = .val v → memRo s.cfg i.toNat = false →
      exec (.stM i) s = .next { s with
        bank := { s.bank with
          m := s.bank.m.set i.toNat
            ⟨toU64 v, (s.bank.mAt i.toNat).pulse, (s.bank.mAt i.toNat).edge, (s.bank.mAt i.toNat).setf,
              (s.bank.mAt i.toNat).resetf⟩ }
        eng := { s.eng with pc := s.eng.pc + 1#25 } })
    ∧ (s.cfg.m.length ≤ i.toNat → exec (.stM i) s = .next (s.raise .badIndex (encode (.stM i))))
    ∧ (i.toNat < s.cfg.m.length → s.eng.acc = .empty → exec (.stM i) s = .next (s.raise .badProg (encode (.stM i))))
    ∧ (∀ v, i.toNat < s.cfg.m.length → s.eng.acc = .val v → memRo s.cfg i.toNat = true →
      exec (.stM i) s = .next (s.raise .badOperand (encode (.stM i))))
    ∧ (∀ v, i.toNat < s.cfg.mr.length → s.eng.acc = .val v → realMemRo s.cfg i.toNat = false →
      exec (.stMr i) s = .next { s with
        bank := { s.bank with
          mr := s.bank.mr.set i.toNat (toReal v) }
        eng := { s.eng with pc := s.eng.pc + 1#25 } })
    ∧ (s.cfg.mr.length ≤ i.toNat → exec (.stMr i) s = .next (s.raise .badIndex (encode (.stMr i))))
    ∧ (i.toNat < s.cfg.mr.length → s.eng.acc = .empty → exec (.stMr i) s = .next (s.raise .badProg (encode (.stMr i))))
    ∧ (∀ v, i.toNat < s.cfg.mr.length → s.eng.acc = .val v → realMemRo s.cfg i.toNat = true →
      exec (.stMr i) s = .next (s.raise .badOperand (encode (.stMr i))))

/-- SET DO, AO, M, MR, T: with truth(ACC) the slot takes its constant; without it only PC advances; their errors (R161, R162, R163, R164, R165). -/
def Obligations.SetWritesItsConstantWhenTheGateIsTrue : Prop :=
  ∀ (i : Index) (s : State),
    (∀ v, i.toNat < s.cfg.nDO → s.eng.acc = .val v → truth s.cfg.realEpsilon v = true →
      exec (.setDo i) s = .next { s with
        bank := { s.bank with
          dout := s.bank.dout.set i.toNat ⟨true, true, (s.bank.doAt i.toNat).resetf⟩ }
        eng := { s.eng with pc := s.eng.pc + 1#25 } })
    ∧ (∀ v, i.toNat < s.cfg.nDO → s.eng.acc = .val v → truth s.cfg.realEpsilon v = false →
      exec (.setDo i) s = .next { s with eng := { s.eng with pc := s.eng.pc + 1#25 } })
    ∧ (s.cfg.nDO ≤ i.toNat → exec (.setDo i) s = .next (s.raise .badIndex (encode (.setDo i))))
    ∧ (i.toNat < s.cfg.nDO → s.eng.acc = .empty → exec (.setDo i) s = .next (s.raise .badProg (encode (.setDo i))))
    ∧ (∀ v, i.toNat < s.cfg.ao.length → s.eng.acc = .val v → truth s.cfg.realEpsilon v = true →
      exec (.setAo i) s = .next { s with
        bank := { s.bank with
          ao := s.bank.ao.set i.toNat F64.one }
        eng := { s.eng with pc := s.eng.pc + 1#25 } })
    ∧ (∀ v, i.toNat < s.cfg.ao.length → s.eng.acc = .val v → truth s.cfg.realEpsilon v = false →
      exec (.setAo i) s = .next { s with eng := { s.eng with pc := s.eng.pc + 1#25 } })
    ∧ (s.cfg.ao.length ≤ i.toNat → exec (.setAo i) s = .next (s.raise .badIndex (encode (.setAo i))))
    ∧ (i.toNat < s.cfg.ao.length → s.eng.acc = .empty → exec (.setAo i) s = .next (s.raise .badProg (encode (.setAo i))))
    ∧ (∀ v, i.toNat < s.cfg.m.length → s.eng.acc = .val v → truth s.cfg.realEpsilon v = true → memRo s.cfg i.toNat = false →
      exec (.setM i) s = .next { s with
        bank := { s.bank with
          m := s.bank.m.set i.toNat
            ⟨(s.bank.mAt i.toNat).v, true, (s.bank.mAt i.toNat).edge, true, (s.bank.mAt i.toNat).resetf⟩ }
        eng := { s.eng with pc := s.eng.pc + 1#25 } })
    ∧ (∀ v, i.toNat < s.cfg.m.length → s.eng.acc = .val v → truth s.cfg.realEpsilon v = false →
      exec (.setM i) s = .next { s with eng := { s.eng with pc := s.eng.pc + 1#25 } })
    ∧ (s.cfg.m.length ≤ i.toNat → exec (.setM i) s = .next (s.raise .badIndex (encode (.setM i))))
    ∧ (i.toNat < s.cfg.m.length → s.eng.acc = .empty → exec (.setM i) s = .next (s.raise .badProg (encode (.setM i))))
    ∧ (∀ v, i.toNat < s.cfg.m.length → s.eng.acc = .val v → truth s.cfg.realEpsilon v = true → memRo s.cfg i.toNat = true →
      exec (.setM i) s = .next (s.raise .badOperand (encode (.setM i))))
    ∧ (∀ v, i.toNat < s.cfg.mr.length → s.eng.acc = .val v → truth s.cfg.realEpsilon v = true → realMemRo s.cfg i.toNat = false →
      exec (.setMr i) s = .next { s with
        bank := { s.bank with
          mr := s.bank.mr.set i.toNat F64.one }
        eng := { s.eng with pc := s.eng.pc + 1#25 } })
    ∧ (∀ v, i.toNat < s.cfg.mr.length → s.eng.acc = .val v → truth s.cfg.realEpsilon v = false →
      exec (.setMr i) s = .next { s with eng := { s.eng with pc := s.eng.pc + 1#25 } })
    ∧ (s.cfg.mr.length ≤ i.toNat → exec (.setMr i) s = .next (s.raise .badIndex (encode (.setMr i))))
    ∧ (i.toNat < s.cfg.mr.length → s.eng.acc = .empty → exec (.setMr i) s = .next (s.raise .badProg (encode (.setMr i))))
    ∧ (∀ v, i.toNat < s.cfg.mr.length → s.eng.acc = .val v → truth s.cfg.realEpsilon v = true → realMemRo s.cfg i.toNat = true →
      exec (.setMr i) s = .next (s.raise .badOperand (encode (.setMr i))))
    ∧ (∀ v, i.toNat < s.cfg.t.length → s.eng.acc = .val v → truth s.cfg.realEpsilon v = true →
      exec (.setT i) s = .next { s with
        bank := { s.bank with
          t := s.bank.t.set i.toNat ⟨(s.bank.tAt i.toNat).c, (s.bank.tAt i.toNat).v, (s.bank.tAt i.toNat).q, true⟩ }
        eng := { s.eng with pc := s.eng.pc + 1#25 } })
    ∧ (∀ v, i.toNat < s.cfg.t.length → s.eng.acc = .val v → truth s.cfg.realEpsilon v = false →
      exec (.setT i) s = .next { s with eng := { s.eng with pc := s.eng.pc + 1#25 } })
    ∧ (s.cfg.t.length ≤ i.toNat → exec (.setT i) s = .next (s.raise .badIndex (encode (.setT i))))
    ∧ (i.toNat < s.cfg.t.length → s.eng.acc = .empty → exec (.setT i) s = .next (s.raise .badProg (encode (.setT i))))

/-- RST DO, AO, M, MR, T: with truth(ACC) the slot takes its constant; without it only PC advances; their errors (R166, R167, R168, R169, R170). -/
def Obligations.ResetWritesItsConstantWhenTheGateIsTrue : Prop :=
  ∀ (i : Index) (s : State),
    (∀ v, i.toNat < s.cfg.nDO → s.eng.acc = .val v → truth s.cfg.realEpsilon v = true →
      exec (.rstDo i) s = .next { s with
        bank := { s.bank with
          dout := s.bank.dout.set i.toNat ⟨false, (s.bank.doAt i.toNat).setf, true⟩ }
        eng := { s.eng with pc := s.eng.pc + 1#25 } })
    ∧ (∀ v, i.toNat < s.cfg.nDO → s.eng.acc = .val v → truth s.cfg.realEpsilon v = false →
      exec (.rstDo i) s = .next { s with eng := { s.eng with pc := s.eng.pc + 1#25 } })
    ∧ (s.cfg.nDO ≤ i.toNat → exec (.rstDo i) s = .next (s.raise .badIndex (encode (.rstDo i))))
    ∧ (i.toNat < s.cfg.nDO → s.eng.acc = .empty → exec (.rstDo i) s = .next (s.raise .badProg (encode (.rstDo i))))
    ∧ (∀ v, i.toNat < s.cfg.ao.length → s.eng.acc = .val v → truth s.cfg.realEpsilon v = true →
      exec (.rstAo i) s = .next { s with
        bank := { s.bank with
          ao := s.bank.ao.set i.toNat F64.zero }
        eng := { s.eng with pc := s.eng.pc + 1#25 } })
    ∧ (∀ v, i.toNat < s.cfg.ao.length → s.eng.acc = .val v → truth s.cfg.realEpsilon v = false →
      exec (.rstAo i) s = .next { s with eng := { s.eng with pc := s.eng.pc + 1#25 } })
    ∧ (s.cfg.ao.length ≤ i.toNat → exec (.rstAo i) s = .next (s.raise .badIndex (encode (.rstAo i))))
    ∧ (i.toNat < s.cfg.ao.length → s.eng.acc = .empty → exec (.rstAo i) s = .next (s.raise .badProg (encode (.rstAo i))))
    ∧ (∀ v, i.toNat < s.cfg.m.length → s.eng.acc = .val v → truth s.cfg.realEpsilon v = true → memRo s.cfg i.toNat = false →
      exec (.rstM i) s = .next { s with
        bank := { s.bank with
          m := s.bank.m.set i.toNat
            ⟨(s.bank.mAt i.toNat).v, false, (s.bank.mAt i.toNat).edge, (s.bank.mAt i.toNat).setf, true⟩ }
        eng := { s.eng with pc := s.eng.pc + 1#25 } })
    ∧ (∀ v, i.toNat < s.cfg.m.length → s.eng.acc = .val v → truth s.cfg.realEpsilon v = false →
      exec (.rstM i) s = .next { s with eng := { s.eng with pc := s.eng.pc + 1#25 } })
    ∧ (s.cfg.m.length ≤ i.toNat → exec (.rstM i) s = .next (s.raise .badIndex (encode (.rstM i))))
    ∧ (i.toNat < s.cfg.m.length → s.eng.acc = .empty → exec (.rstM i) s = .next (s.raise .badProg (encode (.rstM i))))
    ∧ (∀ v, i.toNat < s.cfg.m.length → s.eng.acc = .val v → truth s.cfg.realEpsilon v = true → memRo s.cfg i.toNat = true →
      exec (.rstM i) s = .next (s.raise .badOperand (encode (.rstM i))))
    ∧ (∀ v, i.toNat < s.cfg.mr.length → s.eng.acc = .val v → truth s.cfg.realEpsilon v = true → realMemRo s.cfg i.toNat = false →
      exec (.rstMr i) s = .next { s with
        bank := { s.bank with
          mr := s.bank.mr.set i.toNat F64.zero }
        eng := { s.eng with pc := s.eng.pc + 1#25 } })
    ∧ (∀ v, i.toNat < s.cfg.mr.length → s.eng.acc = .val v → truth s.cfg.realEpsilon v = false →
      exec (.rstMr i) s = .next { s with eng := { s.eng with pc := s.eng.pc + 1#25 } })
    ∧ (s.cfg.mr.length ≤ i.toNat → exec (.rstMr i) s = .next (s.raise .badIndex (encode (.rstMr i))))
    ∧ (i.toNat < s.cfg.mr.length → s.eng.acc = .empty → exec (.rstMr i) s = .next (s.raise .badProg (encode (.rstMr i))))
    ∧ (∀ v, i.toNat < s.cfg.mr.length → s.eng.acc = .val v → truth s.cfg.realEpsilon v = true → realMemRo s.cfg i.toNat = true →
      exec (.rstMr i) s = .next (s.raise .badOperand (encode (.rstMr i))))
    ∧ (∀ v, i.toNat < s.cfg.t.length → s.eng.acc = .val v → truth s.cfg.realEpsilon v = true →
      exec (.rstT i) s = .next { s with
        bank := { s.bank with
          t := s.bank.t.set i.toNat ⟨(s.bank.tAt i.toNat).c, (s.bank.tAt i.toNat).v, (s.bank.tAt i.toNat).q, false⟩ }
        eng := { s.eng with pc := s.eng.pc + 1#25 } })
    ∧ (∀ v, i.toNat < s.cfg.t.length → s.eng.acc = .val v → truth s.cfg.realEpsilon v = false →
      exec (.rstT i) s = .next { s with eng := { s.eng with pc := s.eng.pc + 1#25 } })
    ∧ (s.cfg.t.length ≤ i.toNat → exec (.rstT i) s = .next (s.raise .badIndex (encode (.rstT i))))
    ∧ (i.toNat < s.cfg.t.length → s.eng.acc = .empty → exec (.rstT i) s = .next (s.raise .badProg (encode (.rstT i))))

/-- JMP t: taken when truth(ACC), else PC + 1; the target check comes first; ACC is unchanged (R180). -/
def Obligations.JumpMovesThePcWhenTheAccumulatorIsTrue : Prop :=
  (∀ (t : Index) (s : State),
      (∀ v, t.toNat < s.rungLen → s.eng.acc = .val v → truth s.cfg.realEpsilon v = true →
        exec (.jmp t) s = .next { s with eng := { s.eng with pc := BitVec.ofNat 25 t.toNat } })
      ∧ (∀ v, t.toNat < s.rungLen → s.eng.acc = .val v → truth s.cfg.realEpsilon v = false →
        exec (.jmp t) s = .next { s with eng := { s.eng with pc := s.eng.pc + 1#25 } })
      ∧ (s.rungLen ≤ t.toNat → exec (.jmp t) s = .next (s.raise .badProg (encode (.jmp t))))
      ∧ (t.toNat < s.rungLen → s.eng.acc = .empty → exec (.jmp t) s = .next (s.raise .badProg (encode (.jmp t))))
      ∧ (encode (.jmp t)).toNat = 0x80 * 2 ^ 24 + t.toNat)
  ∧ (∀ w : Word, w.toNat / 2 ^ 28 = 8 → w.toNat / 2 ^ 24 % 16 ≠ 0 → decodeWord w = .error .badOperand)

/-- truth: a bit itself, an integer when nonzero, a real when |r| > REAL_EPSILON, a NaN never (R121). -/
def Obligations.TruthOfATaggedValue : Prop :=
  ∀ eps : F64, eps.isNaN = false →
    (∀ b, truth eps (.bool b) = b) ∧ (∀ v : U64, truth eps (.int v) = decide (v.toNat ≠ 0))
    ∧ (∀ r : F64, r.isNaN = true → truth eps (.real r) = false)
    ∧ (∀ r : F64, r.isNaN = false → truth eps (.real r) = decide (eps.units < (r.mag : Int)))

/-- toU64: a bit as 0 or 1, an integer itself, a real truncated, 0 for a NaN or a nonpositive one, saturated at 2^64 - 1 (R151). -/
def Obligations.ToU64SaturatesAndTruncates : Prop :=
  (∀ b, toU64 (.bool b) = if b then 1#64 else 0#64) ∧ (∀ v, toU64 (.int v) = v)
  ∧ ∀ r : F64,
    (r.isNaN = true → toU64 (.real r) = 0#64)
    ∧ (r.isNaN = false → r.units ≤ 0 → toU64 (.real r) = 0#64)
    ∧ (r.isNaN = false → (2 : Int) ^ 64 * 2 ^ 1074 ≤ r.units → (toU64 (.real r)).toNat = 2 ^ 64 - 1)
    ∧ (r.isNaN = false → 0 < r.units → r.units < (2 : Int) ^ 64 * 2 ^ 1074 →
        ((toU64 (.real r)).toNat : Int) * 2 ^ 1074 ≤ r.units
        ∧ r.units < ((toU64 (.real r)).toNat + 1 : Int) * 2 ^ 1074)

/-- toReal of a bit or a real, and of an integer below 2^53: exact (43_store.md R150). -/
def Obligations.ToRealIsExactBelowTwoToThe53 : Prop :=
  (∀ b, toReal (.bool b) = if b then F64.one else F64.zero) ∧ (∀ r, toReal (.real r) = r)
  ∧ ∀ v : U64, v.toNat < 2 ^ 53 →
    (toReal (.int v)).isFinite = true ∧ (toReal (.int v)).units = (v.toNat : Int) * 2 ^ 1074

/-- toReal(INT(v)) is the binary64 value nearest to v, ties to even, for every u64; bits and reals convert as stated (R150). -/
def Obligations.ToRealIsTheNearestValueTiesToEven : Prop :=
  (∀ b, toReal (.bool b) = if b then F64.one else F64.zero) ∧ (∀ r, toReal (.real r) = r)
  ∧ ∀ (v : U64),
    (toReal (.int v)).isFinite = true
    ∧ ∀ y : F64, y.isFinite = true →
      ((toReal (.int v)).units - (v.toNat : Int) * 2 ^ 1074).natAbs ≤ (y.units - (v.toNat : Int) * 2 ^ 1074).natAbs
      ∧ (((toReal (.int v)).units - (v.toNat : Int) * 2 ^ 1074).natAbs
            = (y.units - (v.toNat : Int) * 2 ^ 1074).natAbs →
          y ≠ toReal (.int v) → (toReal (.int v)).bits.getLsbD 0 = false)

/-- Round trip: ST K,i then LD K,i leaves the stored value, of the destination's own type the very value (R133). -/
def Obligations.StoreThenLoadReturnsTheValue : Prop :=
  ∀ (i : Index) (s : State) (v : Value), SizedBank s.cfg s.bank → s.eng.acc = .val v →
    (i.toNat < s.cfg.nDO → ∃ t u, exec (.stDo i) s = .next t ∧ exec (.ldDo i) t = .next u
      ∧ u.eng.acc = .val (.bool (truth s.cfg.realEpsilon v)) ∧ (∀ b, v = .bool b → u.eng.acc = .val v))
    ∧ (i.toNat < s.cfg.ao.length → ∃ t u, exec (.stAo i) s = .next t ∧ exec (.ldAo i) t = .next u
      ∧ u.eng.acc = .val (.real (toReal v)) ∧ (∀ r, v = .real r → u.eng.acc = .val v))
    ∧ (i.toNat < s.cfg.m.length → memRo s.cfg i.toNat = false →
      ∃ t u, exec (.stM i) s = .next t ∧ exec (.ldM i) t = .next u
      ∧ u.eng.acc = .val (.int (toU64 v)) ∧ (∀ x, v = .int x → u.eng.acc = .val v))
    ∧ (i.toNat < s.cfg.mr.length → realMemRo s.cfg i.toNat = false →
      ∃ t u, exec (.stMr i) s = .next t ∧ exec (.ldMr i) t = .next u
      ∧ u.eng.acc = .val (.real (toReal v)) ∧ (∀ r, v = .real r → u.eng.acc = .val v))

/-- For every word and state, the machine reports the first failing check of the table of R251, and otherwise performs the instruction (60_exceptions.md R251). -/
def Obligations.ChecksAreMadeInTheSpecsOrder : Prop :=
  ∀ (w : Word) (s : State), limitReached s = false →
    (∀ e, firstFailure w s = some e → runWord w s = .next ((countStep s).raise e w))
    ∧ (firstFailure w s = none →
        ∃ i t, decodeWord w = .ok i ∧ exec i (countStep s) = .next t ∧ runWord w s = .next t
          ∧ t.ctl = s.ctl ∧ t.phase = s.phase ∧ t.eng.ri = s.eng.ri)

/-- An error latches its number, RI, PC and word, stops the controller, empties ACC, and changes nothing else (R253, R255). -/
def Obligations.ErrorsArePreciseAndLatched : Prop :=
  ∀ s t : State, s.phase = .rung → step s = .next t → t.phase = .tick →
    ∃ e w, raisable e = true ∧ fetch s = .word w
      ∧ t = { s with
          ctl := ⟨.stopped, s.ctl.shutdownReq, some e, BitVec.ofNat 32 s.eng.ri, s.eng.pc.setWidth 32, w,
            s.ctl.delta⟩
          eng := ⟨.empty, s.eng.ri, s.eng.pc, t.eng.steps⟩
          phase := .tick }

/-- No instruction writes an input, a timer's or blinker's count, EDGE, forcing, PREV, SHUTDOWN_REQ, DELTA or any byte of memory (60_exceptions.md R264, 60_exceptions.md R265, 20_memory.md R71). -/
def Obligations.InstructionsKeepToTheirRights : Prop :=
  ∀ (i : Instr) (s t : State), exec i s = .next t →
    t.cfg = s.cfg ∧ t.prog = s.prog ∧ t.prev = s.prev ∧ t.force = s.force
    ∧ t.bank.di = s.bank.di ∧ t.bank.ai = s.bank.ai ∧ t.bank.b = s.bank.b
    ∧ (∀ j, (t.bank.tAt j).c = (s.bank.tAt j).c ∧ (t.bank.tAt j).v = (s.bank.tAt j).v
        ∧ (t.bank.tAt j).q = (s.bank.tAt j).q ∧ (t.bank.mAt j).edge = (s.bank.mAt j).edge)
    ∧ t.ctl.shutdownReq = s.ctl.shutdownReq ∧ t.ctl.delta = s.ctl.delta
    ∧ t.eng.ri = s.eng.ri ∧ t.eng.steps = s.eng.steps
    ∧ (∀ a, Memory.read t.rawDI a = Memory.read s.rawDI a ∧ Memory.read t.rawAI a = Memory.read s.rawAI a
        ∧ Memory.read t.rawDO a = Memory.read s.rawDO a ∧ Memory.read t.rawAO a = Memory.read s.rawAO a)
    ∧ t.hostOps = s.hostOps ∧ t.answers = s.answers ∧ t.pending = s.pending

/-- An instruction changes at most the one slot it names; LD, AND, OR, ANDN, ORN and JMP change none (20_memory.md R69, 60_exceptions.md R265). -/
def Obligations.OnlyTheNamedSlotCanChange : Prop :=
  ∀ (i : Instr) (s t : State), exec i s = .next t →
    (∀ j, ¬ (i.slotKind = some .dout ∧ j = i.index.toNat) → t.bank.doAt j = s.bank.doAt j)
    ∧ (∀ j, ¬ (i.slotKind = some .ao ∧ j = i.index.toNat) → t.bank.aoAt j = s.bank.aoAt j)
    ∧ (∀ j, ¬ (i.slotKind = some .m ∧ j = i.index.toNat) → t.bank.mAt j = s.bank.mAt j)
    ∧ (∀ j, ¬ (i.slotKind = some .mr ∧ j = i.index.toNat) → t.bank.mrAt j = s.bank.mrAt j)
    ∧ (∀ j, ¬ (i.slotKind = some .t ∧ j = i.index.toNat) → t.bank.tAt j = s.bank.tAt j)
    ∧ ((opField (encode i)).toNat < 5 ∨ (opField (encode i)).toNat = 8 → t.bank = s.bank)

/-- The decode phase: pulse flags cleared, inputs sampled or forced, edges against PREV, analog inputs decoded or forced (40_io_codec.md R100, 40_io_codec.md R101, 40_io_codec.md R102, 40_io_codec.md R104). That RI becomes 0 with this step is the model's choice (log entry 12). -/
def Obligations.DecodePhaseSamplesTheInputs : Prop :=
  ∀ s : State, Sized s → s.phase = .decode → ∃ t, step s = .next t
    ∧ (∀ i, i < s.cfg.nDI →
        let raw := (Memory.read s.rawDI (i / 8)).getLsbD (i % 8)
        let f := bitForceAt s.force.di i
        let now := if f.mask then f.value else raw
        let before := (s.prev.bank.diAt i).i
        t.bank.diAt i = ⟨now, now && !before, !now && before⟩)
    ∧ (∀ i, t.bank.doAt i = ⟨(s.bank.doAt i).q, false, false⟩)
    ∧ (∀ i, t.bank.mAt i = ⟨(s.bank.mAt i).v, (s.bank.mAt i).pulse, (s.bank.mAt i).edge, false, false⟩)
    ∧ (∀ i, i < s.cfg.ai.length →
        let raw : U64 := BitVec.ofNat 64 (Memory.readBE s.rawAI (8 * i) 8 % 2 ^ s.cfg.analogBits)
        let f := realForceAt s.force.ai i
        t.bank.aiAt i = if f.on then f.value else analogDecode s.cfg raw (rangeAt s.cfg.ai i))
    ∧ t.bank.ao = s.bank.ao ∧ t.bank.mr = s.bank.mr ∧ t.bank.t = s.bank.t ∧ t.bank.b = s.bank.b
    ∧ t = { s with bank := t.bank, eng := { s.eng with ri := 0 }, phase := .execute }

/-- The forcing registers change only by a force or unforce operation: no other phase, error, START or STOP changes them (40_io_codec.md R107, 10_state.md R30, 10_state.md R31). -/
def Obligations.ForcingPersists : Prop :=
  ∀ s t : State, step s = .next t →
    (s.phase ≠ .host → t.force = s.force)
    ∧ ((∀ op ∈ s.hostOps, op = .start ∨ op = .stop ∨ op = .shutdown ∨ op = .readSnapshot
          ∨ (∃ n, op = .readCsr n) ∨ (∃ i, op = .isInputForced i ∨ op = .isOutputForced i ∨ op = .isAIForced i
          ∨ op = .isAOForced i)) → t.force = s.force)

/-- The encode phase: each raw output bit and word is the register or the force value, padding 0, other bytes as before (R66, R108). -/
def Obligations.EncodePhaseDrivesTheOutputs : Prop :=
  ∀ s : State, Memory.wf s.rawDO = true → Memory.wf s.rawAO = true → s.phase = .encode → ∃ t, step s = .next t
    ∧ (∀ i, i < s.cfg.nDO →
        let f := bitForceAt s.force.dout i
        (Memory.read t.rawDO (i / 8)).getLsbD (i % 8) = if f.mask then f.value else (s.bank.doAt i).q)
    ∧ (∀ i, s.cfg.nDO ≤ i → i / 8 < (s.cfg.nDO + 7) / 8 → (Memory.read t.rawDO (i / 8)).getLsbD (i % 8) = false)
    ∧ (∀ a, (s.cfg.nDO + 7) / 8 ≤ a → Memory.read t.rawDO a = Memory.read s.rawDO a)
    ∧ (∀ i, i < s.cfg.ao.length →
        let f := realForceAt s.force.ao i
        let v := if f.on then f.value else s.bank.aoAt i
        Memory.readBE t.rawAO (8 * i) 8
          = (analogEncode s.cfg v (rangeAt s.cfg.ao i)).toNat % 2 ^ s.cfg.analogBits)
    ∧ (∀ a, 8 * s.cfg.ao.length ≤ a → Memory.read t.rawAO a = Memory.read s.rawAO a)
    ∧ t = { s with rawDO := t.rawDO, rawAO := t.rawAO, phase := .delta }

/-- The delta phase: each DELTA bit says whether its category changed against PREV, PREV is then replaced whole, and nothing else writes PREV (R110, R111). -/
def Obligations.DeltaPhaseComparesAndReplacesThePreviousScan : Prop :=
  (∀ s : State, s.phase = .delta → ∃ t, step s = .next t
    ∧ (t.ctl.delta.getLsbD 0 = true ↔
        (∃ i, i < s.cfg.nDI ∧ (s.bank.diAt i).i ≠ (s.prev.bank.diAt i).i)
        ∨ (∃ i, i < s.cfg.ai.length ∧ (s.bank.aiAt i).bits ≠ (s.prev.bank.aiAt i).bits))
    ∧ (t.ctl.delta.getLsbD 1 = true ↔
        (∃ i, i < s.cfg.nDO ∧ (s.bank.doAt i).q ≠ (s.prev.bank.doAt i).q)
        ∨ (∃ i, i < s.cfg.ao.length ∧ (s.bank.aoAt i).bits ≠ (s.prev.bank.aoAt i).bits))
    ∧ (t.ctl.delta.getLsbD 2 = true ↔
        (∃ i, i < s.cfg.m.length ∧ (s.bank.mAt i).v ≠ (s.prev.bank.mAt i).v)
        ∨ (∃ i, i < s.cfg.mr.length ∧ (s.bank.mrAt i).bits ≠ (s.prev.bank.mrAt i).bits))
    ∧ (t.ctl.delta.getLsbD 3 = true ↔
        (∃ i, i < s.cfg.t.length ∧ ((s.bank.tAt i).v ≠ (s.prev.bank.tAt i).v
          ∨ (s.bank.tAt i).q ≠ (s.prev.bank.tAt i).q ∨ (s.bank.tAt i).start ≠ (s.prev.bank.tAt i).start))
        ∨ (∃ i, i < s.cfg.b.length ∧ (s.bank.bAt i).q ≠ (s.prev.bank.bAt i).q))
    ∧ (t.ctl.delta.getLsbD 4 = true ↔ s.ctl.state ≠ s.prev.state ∨ s.ctl.err ≠ s.prev.err)
    ∧ t = { s with
        ctl := { s.ctl with delta := t.ctl.delta }
        prev := ⟨s.bank, s.ctl.state, s.ctl.err⟩
        phase := .host })
  ∧ (∀ s t : State, step s = .next t → s.phase ≠ .delta → t.prev = s.prev)

/-- The default analogEncode always gives a valid B-bit sample, 0 for a NaN and for every value at or below MIN (40_io_codec.md R109). -/
def Obligations.DefaultEncodeGivesAValidSample : Prop :=
  ∀ (bits : Nat) (v : F64) (r : Range), 1 ≤ bits → bits ≤ 64 →
    (linearEncode bits v r).toNat ≤ 2 ^ bits - 1 ∧ (v.isNaN = true → linearEncode bits v r = 0#64)
    ∧ (F64.lt r.min r.max = true → F64.le v r.min = true → linearEncode bits v r = 0#64)

/-- The default analogDecode of the raw sample 0 is MIN, bit for bit, when MAX - MIN is finite and MIN is not -0.0 (40_io_codec.md R105). -/
def Obligations.DefaultDecodeOfZeroIsTheMinimum : Prop :=
  ∀ (bits : Nat) (r : Range), 1 ≤ bits → bits ≤ 64 → r.min.isFinite = true → r.max.isFinite = true →
    (F64.sub r.max r.min).isFinite = true → r.min.bits ≠ 0x8000000000000000#64 →
    linearDecode bits 0#64 r = r.min

/-- As R105 states it: with MIN = +0.0 and MAX - MIN = FS, the default analogDecode(raw) is toReal(raw) for raw below 2^53 (false) (40_io_codec.md R105). -/
def Obligations.DefaultDecodeIsExactOnAFullScaleRange : Prop :=
  ∀ (bits : Nat) (raw : U64) (r : Range), 1 ≤ bits → bits ≤ 64 → raw.toNat < 2 ^ bits → raw.toNat < 2 ^ 53 →
    r.min = F64.zero → F64.sub r.max r.min = F64.ofNat (2 ^ bits - 1) →
    linearDecode bits raw r = F64.ofNat raw.toNat

/-- With MIN = +0.0, MAX = FS and up to 26 bits (log entry 7), analogDecode is exact and analogEncode gives the raw sample back (40_io_codec.md R105, 40_io_codec.md R109). The cut at 26 bits rests on log entry 7 (DEDUCED). -/
def Obligations.DefaultCodecRoundTripsUpTo26Bits : Prop :=
  ∀ (bits : Nat) (raw : U64), 1 ≤ bits → bits ≤ 26 → raw.toNat < 2 ^ bits →
    linearDecode bits raw ⟨F64.zero, F64.ofNat (2 ^ bits - 1)⟩ = F64.ofNat raw.toNat
    ∧ linearEncode bits (linearDecode bits raw ⟨F64.zero, F64.ofNat (2 ^ bits - 1)⟩)
        ⟨F64.zero, F64.ofNat (2 ^ bits - 1)⟩ = raw

/-- As R109 states it: with MIN = 0, MAX = FS and B up to 53, the default analogEncode(analogDecode(raw)) is raw (40_io_codec.md R109). Above 26 bits the decode alone need not be exact (log entry 7). -/
def Obligations.DefaultEncodeInvertsDecodeUpTo53Bits : Prop :=
  ∀ (bits : Nat) (raw : U64) (r : Range), 1 ≤ bits → bits ≤ 53 → raw.toNat < 2 ^ bits →
    r.min.isZero = true → r.max = F64.ofNat (2 ^ bits - 1) →
    linearEncode bits (linearDecode bits raw r) r = raw

/-- The tick phase of a controller that is not RUNNING changes nothing; of a RUNNING one it steps every timer and blinker exactly once (46_sequencer.md R185, 46_sequencer.md R190, 46_sequencer.md R194, 46_sequencer.md R197). -/
def Obligations.StoppedControllerDoesNotTick : Prop :=
  ∀ s : State, s.phase = .tick →
    (s.ctl.state ≠ .running → step s = .next { s with phase := .encode })
    ∧ (s.ctl.state = .running → SizedBank s.cfg s.bank → (∀ k ∈ s.cfg.t, k.onDelay = true) → ∃ t, step s = .next t
      ∧ (∀ i, i < s.cfg.t.length →
          let k := timerCfgAt s.cfg i
          let x := s.bank.tAt i
          let c1 := if k.scale ≤ x.c + 1#64 then 0#64 else x.c + 1#64
          let v1 := if k.scale ≤ x.c + 1#64 then x.v + 1#64 else x.v
          (x.start = false → t.bank.tAt i = ⟨0#64, 0#64, false, false⟩)
          ∧ (x.start = true → k.preset ≤ x.v → t.bank.tAt i = ⟨x.c, x.v, true, true⟩)
          ∧ (x.start = true → x.v < k.preset →
              t.bank.tAt i = ⟨c1, v1, x.q || decide (k.preset ≤ v1), true⟩))
      ∧ (∀ i, i < s.cfg.b.length →
          let x := s.bank.bAt i
          t.bank.bAt i = if blinkerScaleAt s.cfg i ≤ x.c + 1#64 then ⟨0#64, !x.q⟩ else ⟨x.c + 1#64, x.q⟩)
      ∧ t.bank.di = s.bank.di ∧ t.bank.dout = s.bank.dout ∧ t.bank.ai = s.bank.ai ∧ t.bank.ao = s.bank.ao
      ∧ t.bank.mr = s.bank.mr ∧ t = { s with bank := t.bank, phase := .encode })

/-- The counter tick: EDGE is PULSE against PREV; on an edge V moves by one, up or down, modulo 2^64; else V stays (R200, R201). -/
def Obligations.CountersCountRisingPulsesAndWrap : Prop :=
  ∀ s : State, s.phase = .tick → s.ctl.state = .running → SizedBank s.cfg s.bank → (∀ k ∈ s.cfg.t, k.onDelay = true) →
    ∃ t, step s = .next t ∧ ∀ i, i < s.cfg.m.length →
      let x := s.bank.mAt i
      let y := t.bank.mAt i
      let rose := x.pulse && !(s.prev.bank.mAt i).pulse
      y.edge = rose ∧ y.pulse = x.pulse ∧ y.setf = x.setf ∧ y.resetf = x.resetf
      ∧ (rose = false → y.v = x.v)
      ∧ (rose = true → memDown s.cfg i = false → y.v.toNat = (x.v.toNat + 1) % 2 ^ 64)
      ∧ (rose = true → memDown s.cfg i = true → y.v.toNat = (x.v.toNat + (2 ^ 64 - 1)) % 2 ^ 64)

/-- On-delay timer: after k ticks with START held, V = min(k/S, P), C = k mod S while V < P, and Q = 1 exactly from k = S*P on (R191). -/
def Obligations.OnDelayTimerClosedForm : Prop :=
  ∀ (k : TimerCfg) (n : Nat), 1 ≤ k.scale.toNat → 1 ≤ n →
    let x := (tickTimer k)^[n] ⟨0#64, 0#64, false, true⟩
    x.start = true ∧ x.v.toNat = min (n / k.scale.toNat) k.preset.toNat
    ∧ (x.v.toNat < k.preset.toNat → x.c.toNat = n % k.scale.toNat)
    ∧ (x.q = true ↔ k.scale.toNat * k.preset.toNat ≤ n)
    ∧ x.v.toNat ≤ (tickTimer k x).v.toNat

/-- Blinker: after k ticks from reset, Q = floor(k/S) mod 2 and C = k mod S (R198). -/
def Obligations.BlinkerClosedForm : Prop :=
  ∀ (scale : U64) (n : Nat), 1 ≤ scale.toNat →
    let x := (tickBlinker scale)^[n] ⟨0#64, false⟩
    x.c.toNat = n % scale.toNat ∧ (x.q = true ↔ n / scale.toNat % 2 = 1)
    ∧ (tickBlinker scale)^[2 * scale.toNat] ⟨0#64, false⟩ = ⟨0#64, false⟩
    ∧ (scale = 1#64 → (x.q = true ↔ n % 2 = 1))

/-- START: STOPPED to RUNNING with ERR cleared; STOP: RUNNING to STOPPED with ERR kept; otherwise nothing; SHUTDOWN sets its flag (R230, R231). -/
def Obligations.StartAndStopMoveTheController : Prop :=
  ∀ s : State,
    (s.ctl.state = .stopped →
      applyOp .start s = ({ s with ctl := { s.ctl with state := .running, err := none } }, .ok))
    ∧ (s.ctl.state ≠ .stopped → applyOp .start s = (s, .ok))
    ∧ (s.ctl.state = .running → applyOp .stop s = ({ s with ctl := { s.ctl with state := .stopped } }, .ok))
    ∧ (s.ctl.state ≠ .running → applyOp .stop s = (s, .ok))
    ∧ applyOp .shutdown s = ({ s with ctl := { s.ctl with shutdownReq := true } }, .ok)

/-- FORCE and UNFORCE write the mask and value of the one channel, the queries answer the mask bit; out of range ERR_BAD_INDEX (R113, R114). -/
def Obligations.ForceOperationsWriteOneChannel : Prop :=
  ∀ (i : Nat) (b : Bool) (r : F64) (s : State),
    (i < s.cfg.nDI → (applyOp (.forceDI i b) s) = ({ s with force := { s.force with di := s.force.di.set i ⟨true, b⟩ } }, .ok)
      ∧ applyOp (.unforceDI i) s = ({ s with force := { s.force with di := s.force.di.set i ⟨false, false⟩ } }, .ok))
    ∧ (s.cfg.nDI ≤ i → applyOp (.forceDI i b) s = (s, .badIndex) ∧ applyOp (.unforceDI i) s = (s, .badIndex))
    ∧ (i < s.cfg.nDO → (applyOp (.forceDO i b) s) = ({ s with force := { s.force with dout := s.force.dout.set i ⟨true, b⟩ } }, .ok)
      ∧ applyOp (.unforceDO i) s = ({ s with force := { s.force with dout := s.force.dout.set i ⟨false, false⟩ } }, .ok))
    ∧ (s.cfg.nDO ≤ i → applyOp (.forceDO i b) s = (s, .badIndex) ∧ applyOp (.unforceDO i) s = (s, .badIndex))
    ∧ (i < s.cfg.ai.length → (applyOp (.forceAI i r) s) = ({ s with force := { s.force with ai := s.force.ai.set i ⟨true, r⟩ } }, .ok)
      ∧ applyOp (.unforceAI i) s = ({ s with force := { s.force with ai := s.force.ai.set i ⟨false, F64.zero⟩ } }, .ok))
    ∧ (s.cfg.ai.length ≤ i → applyOp (.forceAI i r) s = (s, .badIndex) ∧ applyOp (.unforceAI i) s = (s, .badIndex))
    ∧ (i < s.cfg.ao.length → (applyOp (.forceAO i r) s) = ({ s with force := { s.force with ao := s.force.ao.set i ⟨true, r⟩ } }, .ok)
      ∧ applyOp (.unforceAO i) s = ({ s with force := { s.force with ao := s.force.ao.set i ⟨false, F64.zero⟩ } }, .ok))
    ∧ (s.cfg.ao.length ≤ i → applyOp (.forceAO i r) s = (s, .badIndex) ∧ applyOp (.unforceAO i) s = (s, .badIndex))
    ∧ (i < s.cfg.nDI → applyOp (.isInputForced i) s = (s, .bit (bitForceAt s.force.di i).mask))
    ∧ (s.cfg.nDI ≤ i → applyOp (.isInputForced i) s = (s, .badIndex))
    ∧ (i < s.cfg.nDO → applyOp (.isOutputForced i) s = (s, .bit (bitForceAt s.force.dout i).mask))
    ∧ (s.cfg.nDO ≤ i → applyOp (.isOutputForced i) s = (s, .badIndex))
    ∧ (i < s.cfg.ai.length → applyOp (.isAIForced i) s = (s, .bit (realForceAt s.force.ai i).on))
    ∧ (s.cfg.ai.length ≤ i → applyOp (.isAIForced i) s = (s, .badIndex))
    ∧ (i < s.cfg.ao.length → applyOp (.isAOForced i) s = (s, .bit (realForceAt s.force.ao i).on))
    ∧ (s.cfg.ao.length ≤ i → applyOp (.isAOForced i) s = (s, .badIndex))
    ∧ (SizedForcing s.cfg s.force →
        (i < s.cfg.nDI → (applyOp (.isInputForced i) (applyOp (.forceDI i b) s).1).2 = .bit true
          ∧ (applyOp (.isInputForced i) (applyOp (.unforceDI i) s).1).2 = .bit false)
        ∧ (i < s.cfg.nDO → (applyOp (.isOutputForced i) (applyOp (.forceDO i b) s).1).2 = .bit true
          ∧ (applyOp (.isOutputForced i) (applyOp (.unforceDO i) s).1).2 = .bit false)
        ∧ (i < s.cfg.ai.length → (applyOp (.isAIForced i) (applyOp (.forceAI i r) s).1).2 = .bit true
          ∧ (applyOp (.isAIForced i) (applyOp (.unforceAI i) s).1).2 = .bit false)
        ∧ (i < s.cfg.ao.length → (applyOp (.isAOForced i) (applyOp (.forceAO i r) s).1).2 = .bit true
          ∧ (applyOp (.isAOForced i) (applyOp (.unforceAO i) s).1).2 = .bit false))
    ∧ (i < s.cfg.nDI → bitForceAt s.force.di i = ⟨false, false⟩ → applyOp (.unforceDI i) s = (s, .ok))
    ∧ (i < s.cfg.nDO → bitForceAt s.force.dout i = ⟨false, false⟩ → applyOp (.unforceDO i) s = (s, .ok))
    ∧ (i < s.cfg.ai.length → realForceAt s.force.ai i = ⟨false, F64.zero⟩ → applyOp (.unforceAI i) s = (s, .ok))
    ∧ (i < s.cfg.ao.length → realForceAt s.force.ao i = ⟨false, F64.zero⟩ → applyOp (.unforceAO i) s = (s, .ok))
    ∧ (∀ (b' : Bool) (r' : F64),
        applyOp (.forceDI i b) (applyOp (.forceDI i b') s).1 = applyOp (.forceDI i b) s
        ∧ applyOp (.forceDO i b) (applyOp (.forceDO i b') s).1 = applyOp (.forceDO i b) s
        ∧ applyOp (.forceAI i r) (applyOp (.forceAI i r') s).1 = applyOp (.forceAI i r) s
        ∧ applyOp (.forceAO i r) (applyOp (.forceAO i r') s).1 = applyOp (.forceAO i r) s)

/-- READ_CSR: STATUS is STATE + 4 SHUTDOWN_REQ + 256 ERR, then ERR_RUNG, ERR_PC, ERR_WORD, DELTA; any other number ERR_BAD_INDEX (10_state.md R39). -/
def Obligations.ControlRegistersReadAsLaidOut : Prop :=
  ∀ s : State,
    (∃ w : Word, applyOp (.readCsr 0) s = (s, .csr w)
      ∧ w.toNat = (match s.ctl.state with | .stopped => 0 | .running => 1 | .terminated => 2)
          + 4 * (if s.ctl.shutdownReq then 1 else 0)
          + 256 * (match s.ctl.err with
            | none => 0 | some .badChar => 1 | some .badFile => 2 | some .badOperand => 3 | some .badIndex => 4
            | some .badCoil => 5 | some .badOperator => 6 | some .timeout => 7 | some .overflow => 8 | some .badProg => 9)
      ∧ w.toNat % 4 ≠ 3)
    ∧ applyOp (.readCsr 1) s = (s, .csr s.ctl.errRung) ∧ applyOp (.readCsr 2) s = (s, .csr s.ctl.errPc)
    ∧ applyOp (.readCsr 3) s = (s, .csr s.ctl.errWord)
    ∧ (∃ w : Word, applyOp (.readCsr 4) s = (s, .csr w) ∧ w.toNat = s.ctl.delta.toNat)
    ∧ (∀ n, 5 ≤ n → applyOp (.readCsr n) s = (s, .badIndex))
    ∧ (∀ op,
        let k := (applyOp op s).1.ctl
        k.errRung = s.ctl.errRung ∧ k.errPc = s.ctl.errPc ∧ k.errWord = s.ctl.errWord ∧ k.delta = s.ctl.delta
        ∧ (op ≠ .start → op ≠ .stop → op ≠ .shutdown → k = s.ctl))

/-- A host operation that answers ERR_BAD_INDEX changes nothing: no register, no ERR, no STATE (R261). -/
def Obligations.RefusedHostOperationChangesNothing : Prop :=
  ∀ (op : HostOp) (s : State), (applyOp op s).2 = .badIndex → (applyOp op s).1 = s

/-- Phase 5 applies the operations one after another in the order issued, one answer each, and ends the scan (47_rung_and_scan.md R223, 47_rung_and_scan.md R234). That the operations are used up (hostOps) and the answers kept in the field answers is the model's choice (log entry 8). -/
def Obligations.HostPhaseAppliesTheOperationsInOrder : Prop :=
  (∀ s : State, s.phase = .host → ∃ u as, applyOps s.hostOps s = (u, as) ∧ as.length = s.hostOps.length
      ∧ step s = .next { u with hostOps := [], answers := as, phase := .boundary })
  ∧ (∀ (a b : List HostOp) (s : State),
      applyOps (a ++ b) s = ((applyOps b (applyOps a s).1).1, (applyOps a s).2 ++ (applyOps b (applyOps a s).1).2))
  ∧ (∀ (op : HostOp) (s : State), applyOps [op] s = ((applyOp op s).1, [(applyOp op s).2]))
  ∧ (∀ s t : State, s.phase = .host → s.ctl.state = .running → s.hostOps = [.stop, .start] → step s = .next t →
      t.ctl.state = .running ∧ t.ctl.err = none)

/-- No host operation writes a slot, PREV, the engine, the program, the configuration or a raw buffer; READ_SNAPSHOT shows the state (40_io_codec.md R112, 47_rung_and_scan.md R236, 60_exceptions.md R265). That the answer is a record is the model's choice (log entry 14). -/
def Obligations.HostCannotWriteTheBank : Prop :=
  ∀ (op : HostOp) (s : State),
    (let t := (applyOp op s).1;
      t.bank = s.bank ∧ t.prev = s.prev ∧ t.eng = s.eng ∧ t.cfg = s.cfg ∧ t.prog = s.prog
      ∧ t.rawDI = s.rawDI ∧ t.rawAI = s.rawAI ∧ t.rawDO = s.rawDO ∧ t.rawAO = s.rawAO ∧ t.phase = s.phase)
    ∧ ∃ x : Snapshot, applyOp .readSnapshot s = (s, .snapshot x)
      ∧ x.bank = s.bank ∧ x.force = s.force ∧ x.aiRange = s.cfg.ai ∧ x.aoRange = s.cfg.ao ∧ x.tCfg = s.cfg.t
      ∧ x.bScale = s.cfg.b ∧ (∀ i, i < s.cfg.m.length → x.mFlags.getD i (false, false) = (memRo s.cfg i, memDown s.cfg i))
      ∧ (∀ i, i < s.cfg.mr.length → x.mrRo.getD i false = realMemRo s.cfg i)
      ∧ readCsr s.ctl 0 = some x.status ∧ x.errRung = s.ctl.errRung ∧ x.errPc = s.ctl.errPc
      ∧ x.errWord = s.ctl.errWord ∧ x.delta.toNat = s.ctl.delta.toNat

/-- The serialised snapshot: register bank slot by slot in the order of R22 to R29, then forcing and control registers, big-endian (20_memory.md R79, 40_io_codec.md R112, 10_state.md R30, 10_state.md R31, 10_state.md R39). The order of the forcing and control registers, and the 4 bytes of a control register, are the model's choice (log entry 14). -/
def Obligations.SnapshotBytesAreLaidOutSlotBySlot : Prop :=
  ∀ s : State, Sized s →
    let b := (snapshot s).bytes
    let num := fun (a n : Nat) => ((b.drop a).take n).foldl (fun x y => x * 256 + y.toNat) 0
    let bit := fun (x : Bool) => if x then 1 else 0
    let oDO := 3 * s.cfg.nDI
    let oAI := oDO + 3 * s.cfg.nDO
    let oAO := oAI + 24 * s.cfg.ai.length
    let oM := oAO + 24 * s.cfg.ao.length
    let oMR := oM + 14 * s.cfg.m.length
    let oT := oMR + 9 * s.cfg.mr.length
    let oB := oT + 35 * s.cfg.t.length
    let oFI := oB + 17 * s.cfg.b.length
    let oFO := oFI + 2 * s.cfg.nDI
    let oFAI := oFO + 2 * s.cfg.nDO
    let oFAO := oFAI + 9 * s.cfg.ai.length
    let oC := oFAO + 9 * s.cfg.ao.length
    b.length = oC + 20
    ∧ (∀ i, i < s.cfg.nDI →
        num (3 * i) 1 = bit (s.bank.diAt i).i ∧ num (3 * i + 1) 1 = bit (s.bank.diAt i).re
        ∧ num (3 * i + 2) 1 = bit (s.bank.diAt i).fe)
    ∧ (∀ i, i < s.cfg.nDO →
        num (oDO + 3 * i) 1 = bit (s.bank.doAt i).q ∧ num (oDO + 3 * i + 1) 1 = bit (s.bank.doAt i).setf
        ∧ num (oDO + 3 * i + 2) 1 = bit (s.bank.doAt i).resetf)
    ∧ (∀ i, i < s.cfg.ai.length →
        num (oAI + 24 * i) 8 = (s.bank.aiAt i).bits.toNat
        ∧ num (oAI + 24 * i + 8) 8 = (rangeAt s.cfg.ai i).min.bits.toNat
        ∧ num (oAI + 24 * i + 16) 8 = (rangeAt s.cfg.ai i).max.bits.toNat)
    ∧ (∀ i, i < s.cfg.ao.length →
        num (oAO + 24 * i) 8 = (s.bank.aoAt i).bits.toNat
        ∧ num (oAO + 24 * i + 8) 8 = (rangeAt s.cfg.ao i).min.bits.toNat
        ∧ num (oAO + 24 * i + 16) 8 = (rangeAt s.cfg.ao i).max.bits.toNat)
    ∧ (∀ i, i < s.cfg.m.length →
        num (oM + 14 * i) 8 = (s.bank.mAt i).v.toNat ∧ num (oM + 14 * i + 8) 1 = bit (s.bank.mAt i).pulse
        ∧ num (oM + 14 * i + 9) 1 = bit (s.bank.mAt i).edge
        ∧ num (oM + 14 * i + 10) 1 = bit (s.bank.mAt i).setf
        ∧ num (oM + 14 * i + 11) 1 = bit (s.bank.mAt i).resetf
        ∧ num (oM + 14 * i + 12) 1 = bit (memRo s.cfg i) ∧ num (oM + 14 * i + 13) 1 = bit (memDown s.cfg i))
    ∧ (∀ i, i < s.cfg.mr.length →
        num (oMR + 9 * i) 8 = (s.bank.mrAt i).bits.toNat
        ∧ num (oMR + 9 * i + 8) 1 = bit (realMemRo s.cfg i))
    ∧ (∀ i, i < s.cfg.t.length →
        num (oT + 35 * i) 8 = (s.bank.tAt i).c.toNat ∧ num (oT + 35 * i + 8) 8 = (s.bank.tAt i).v.toNat
        ∧ num (oT + 35 * i + 16) 1 = bit (s.bank.tAt i).q
        ∧ num (oT + 35 * i + 17) 1 = bit (s.bank.tAt i).start
        ∧ num (oT + 35 * i + 18) 8 = (timerCfgAt s.cfg i).scale.toNat
        ∧ num (oT + 35 * i + 26) 8 = (timerCfgAt s.cfg i).preset.toNat
        ∧ num (oT + 35 * i + 34) 1 = bit (timerCfgAt s.cfg i).onDelay)
    ∧ (∀ i, i < s.cfg.b.length →
        num (oB + 17 * i) 8 = (s.bank.bAt i).c.toNat ∧ num (oB + 17 * i + 8) 1 = bit (s.bank.bAt i).q
        ∧ num (oB + 17 * i + 9) 8 = (blinkerScaleAt s.cfg i).toNat)
    ∧ (∀ i, i < s.cfg.nDI →
        num (oFI + 2 * i) 1 = bit (bitForceAt s.force.di i).mask
        ∧ num (oFI + 2 * i + 1) 1 = bit (bitForceAt s.force.di i).value)
    ∧ (∀ i, i < s.cfg.nDO →
        num (oFO + 2 * i) 1 = bit (bitForceAt s.force.dout i).mask
        ∧ num (oFO + 2 * i + 1) 1 = bit (bitForceAt s.force.dout i).value)
    ∧ (∀ i, i < s.cfg.ai.length →
        num (oFAI + 9 * i) 1 = bit (realForceAt s.force.ai i).on
        ∧ num (oFAI + 9 * i + 1) 8 = (realForceAt s.force.ai i).value.bits.toNat)
    ∧ (∀ i, i < s.cfg.ao.length →
        num (oFAO + 9 * i) 1 = bit (realForceAt s.force.ao i).on
        ∧ num (oFAO + 9 * i + 1) 8 = (realForceAt s.force.ao i).value.bits.toNat)
    ∧ (∃ w, readCsr s.ctl 0 = some w ∧ num oC 4 = w.toNat) ∧ num (oC + 4) 4 = s.ctl.errRung.toNat
    ∧ num (oC + 8) 4 = s.ctl.errPc.toNat ∧ num (oC + 12) 4 = s.ctl.errWord.toNat ∧ num (oC + 16) 4 = s.ctl.delta.toNat

/-- After reset: every register at the value the spec states, for every accepted configuration and program (R46, R47, R48, R49, R50). -/
def Obligations.BootSetsTheResetValues : Prop :=
  ∀ (c : Cfg) (p : Program) (s : State), boot c p = .next s →
    s.cfg = c ∧ s.prog = p ∧ Sized s
    ∧ (∀ i, s.bank.diAt i = ⟨false, false, false⟩ ∧ s.bank.doAt i = ⟨false, false, false⟩
        ∧ s.bank.aiAt i = F64.zero ∧ s.bank.aoAt i = F64.zero
        ∧ s.bank.tAt i = ⟨0#64, 0#64, false, false⟩ ∧ s.bank.bAt i = ⟨0#64, false⟩)
    ∧ (∀ i x, c.m[i]? = some x → s.bank.mAt i = ⟨x.value.getD 0#64, false, false, false, false⟩)
    ∧ (∀ i x, c.mr[i]? = some x → s.bank.mrAt i = x.value.getD F64.zero)
    ∧ (∀ i, bitForceAt s.force.di i = ⟨false, false⟩ ∧ bitForceAt s.force.dout i = ⟨false, false⟩
        ∧ realForceAt s.force.ai i = ⟨false, F64.zero⟩ ∧ realForceAt s.force.ao i = ⟨false, F64.zero⟩)
    ∧ s.prev = ⟨s.bank, .stopped, none⟩ ∧ s.ctl = ⟨.stopped, false, none, 0#32, 0#32, 0#32, 0#5⟩
    ∧ s.eng = ⟨.empty, 0, 0#25, 0⟩

/-- Reset refuses a configuration or program with any of the listed properties, and accepts every other (70_reset_and_hazards.md R281). Two readings are the model's: a REAL_EPSILON of -0.0 is accepted (log entry 13, DEDUCED), and MAX - MIN is the rounded binary64 difference (log entry 17, DEDUCED). -/
def Obligations.BootRefusesExactlyTheBadConfigurations : Prop :=
  ∀ (c : Cfg) (p : Program),
    let ok := (c.nDI ≤ 2 ^ 24 ∧ c.nDO ≤ 2 ^ 24 ∧ c.ai.length ≤ 2 ^ 24 ∧ c.ao.length ≤ 2 ^ 24 ∧ c.m.length ≤ 2 ^ 24
        ∧ c.mr.length ≤ 2 ^ 24 ∧ c.t.length ≤ 2 ^ 24 ∧ c.b.length ≤ 2 ^ 24)
      ∧ (c.maxRungs ≤ 2 ^ 24 ∧ p.rungs.length ≤ c.maxRungs
        ∧ ∀ r ∈ p.rungs, r.len ≤ 2 ^ 24 ∧ r.base + r.len ≤ p.words)
      ∧ ((∀ k ∈ c.t, k.scale ≠ 0#64) ∧ (∀ x ∈ c.b, x ≠ 0#64)) ∧ (∀ k ∈ c.t, k.onDelay = true)
      ∧ (∀ r, r ∈ c.ai ∨ r ∈ c.ao → F64.lt r.min r.max = true ∧ (F64.sub r.max r.min).isFinite = true)
      ∧ (1 ≤ c.analogBits ∧ c.analogBits ≤ 64)
      ∧ (c.realEpsilon.isNaN = false ∧ 0 ≤ c.realEpsilon.units) ∧ c.rungStepLimit ≠ some 0
    (ok → boot c p = .next (State.ofConfig c p)) ∧ (¬ ok → ∃ f, boot c p = .refused (.badConfig f))

/-- Every block that reset gives, from a canonical program store, has the invariant, zero raw outputs and stands at phase 0 (70_reset_and_hazards.md R280, 10_state.md R46, 10_state.md R51). -/
def Obligations.BootEstablishesTheInvariant : Prop :=
  ∀ (c : Cfg) (p : Program) (s : State), p.imem.wf = true → boot c p = .next s →
    Inv s ∧ (∀ a, Memory.read s.rawDO a = 0#8 ∧ Memory.read s.rawAO a = 0#8) ∧ s.phase = .boundary

/-- State.reset is what reset gives for CFG-A and the empty program (the model's choice), and it satisfies the invariant (70_reset_and_hazards.md R280, 95_test_vectors.md section 1). -/
def Obligations.ResetStateIsABootedBlockWithTheInvariant : Prop :=
  boot Cfg.cfgA Program.empty = .next State.reset ∧ Inv State.reset

/-- The invariant is kept by every step, from every state that has it (10_state.md R32, 10_state.md R42, 20_memory.md R66, 40_io_codec.md R102, 46_sequencer.md R190, 46_sequencer.md R197, 46_sequencer.md R202, 60_exceptions.md R250, 60_exceptions.md R255). -/
def Obligations.EveryStepKeepsTheInvariant : Prop :=
  ∀ s t : State, Inv s → step s = .next t → Inv t

/-- From a state with the invariant, a step always gives a next state, except in TERMINATED, where the run has ended (47_rung_and_scan.md R211, 47_rung_and_scan.md R223). That a step in TERMINATED is the fault runEnded is the model's (log entry 11, DEDUCED). -/
def Obligations.NoStepFailsUntilTheRunEnds : Prop :=
  ∀ s : State, Inv s → SafeOutcome s (step s)
end

