-- ==== Sys2Proof/Laws/State.lean ====
section
/-! SUPPORT. For every update of the state, one lemma per field, true by rfl and tagged @[simp], so that no later
proof unfolds a record update; then the same for the updates of the register bank. -/

namespace Sys2Proof.Machine

open Sys2Proof

/-! ### Updates of the state -/

@[simp] theorem State.setAcc_cfg (a : Acc) (s : State) : (s.setAcc a).cfg = s.cfg := rfl
@[simp] theorem State.setAcc_prog (a : Acc) (s : State) : (s.setAcc a).prog = s.prog := rfl
@[simp] theorem State.setAcc_bank (a : Acc) (s : State) : (s.setAcc a).bank = s.bank := rfl
@[simp] theorem State.setAcc_force (a : Acc) (s : State) : (s.setAcc a).force = s.force := rfl
@[simp] theorem State.setAcc_prev (a : Acc) (s : State) : (s.setAcc a).prev = s.prev := rfl
@[simp] theorem State.setAcc_ctl (a : Acc) (s : State) : (s.setAcc a).ctl = s.ctl := rfl
@[simp] theorem State.setAcc_eng (a : Acc) (s : State) : (s.setAcc a).eng = { s.eng with acc := a } := rfl
@[simp] theorem State.setAcc_rawDI (a : Acc) (s : State) : (s.setAcc a).rawDI = s.rawDI := rfl
@[simp] theorem State.setAcc_rawAI (a : Acc) (s : State) : (s.setAcc a).rawAI = s.rawAI := rfl
@[simp] theorem State.setAcc_rawDO (a : Acc) (s : State) : (s.setAcc a).rawDO = s.rawDO := rfl
@[simp] theorem State.setAcc_rawAO (a : Acc) (s : State) : (s.setAcc a).rawAO = s.rawAO := rfl
@[simp] theorem State.setAcc_phase (a : Acc) (s : State) : (s.setAcc a).phase = s.phase := rfl
@[simp] theorem State.setAcc_hostOps (a : Acc) (s : State) : (s.setAcc a).hostOps = s.hostOps := rfl
@[simp] theorem State.setAcc_answers (a : Acc) (s : State) : (s.setAcc a).answers = s.answers := rfl
@[simp] theorem State.setAcc_pending (a : Acc) (s : State) : (s.setAcc a).pending = s.pending := rfl

@[simp] theorem State.setPc_cfg (t : Pc) (s : State) : (s.setPc t).cfg = s.cfg := rfl
@[simp] theorem State.setPc_prog (t : Pc) (s : State) : (s.setPc t).prog = s.prog := rfl
@[simp] theorem State.setPc_bank (t : Pc) (s : State) : (s.setPc t).bank = s.bank := rfl
@[simp] theorem State.setPc_force (t : Pc) (s : State) : (s.setPc t).force = s.force := rfl
@[simp] theorem State.setPc_prev (t : Pc) (s : State) : (s.setPc t).prev = s.prev := rfl
@[simp] theorem State.setPc_ctl (t : Pc) (s : State) : (s.setPc t).ctl = s.ctl := rfl
@[simp] theorem State.setPc_eng (t : Pc) (s : State) : (s.setPc t).eng = { s.eng with pc := t } := rfl
@[simp] theorem State.setPc_rawDI (t : Pc) (s : State) : (s.setPc t).rawDI = s.rawDI := rfl
@[simp] theorem State.setPc_rawAI (t : Pc) (s : State) : (s.setPc t).rawAI = s.rawAI := rfl
@[simp] theorem State.setPc_rawDO (t : Pc) (s : State) : (s.setPc t).rawDO = s.rawDO := rfl
@[simp] theorem State.setPc_rawAO (t : Pc) (s : State) : (s.setPc t).rawAO = s.rawAO := rfl
@[simp] theorem State.setPc_phase (t : Pc) (s : State) : (s.setPc t).phase = s.phase := rfl
@[simp] theorem State.setPc_hostOps (t : Pc) (s : State) : (s.setPc t).hostOps = s.hostOps := rfl
@[simp] theorem State.setPc_answers (t : Pc) (s : State) : (s.setPc t).answers = s.answers := rfl
@[simp] theorem State.setPc_pending (t : Pc) (s : State) : (s.setPc t).pending = s.pending := rfl

@[simp] theorem State.advance_cfg (s : State) : (s.advance).cfg = s.cfg := rfl
@[simp] theorem State.advance_prog (s : State) : (s.advance).prog = s.prog := rfl
@[simp] theorem State.advance_bank (s : State) : (s.advance).bank = s.bank := rfl
@[simp] theorem State.advance_force (s : State) : (s.advance).force = s.force := rfl
@[simp] theorem State.advance_prev (s : State) : (s.advance).prev = s.prev := rfl
@[simp] theorem State.advance_ctl (s : State) : (s.advance).ctl = s.ctl := rfl
@[simp] theorem State.advance_eng (s : State) : (s.advance).eng = { s.eng with pc := s.eng.pc + 1#25 } := rfl
@[simp] theorem State.advance_rawDI (s : State) : (s.advance).rawDI = s.rawDI := rfl
@[simp] theorem State.advance_rawAI (s : State) : (s.advance).rawAI = s.rawAI := rfl
@[simp] theorem State.advance_rawDO (s : State) : (s.advance).rawDO = s.rawDO := rfl
@[simp] theorem State.advance_rawAO (s : State) : (s.advance).rawAO = s.rawAO := rfl
@[simp] theorem State.advance_phase (s : State) : (s.advance).phase = s.phase := rfl
@[simp] theorem State.advance_hostOps (s : State) : (s.advance).hostOps = s.hostOps := rfl
@[simp] theorem State.advance_answers (s : State) : (s.advance).answers = s.answers := rfl
@[simp] theorem State.advance_pending (s : State) : (s.advance).pending = s.pending := rfl

@[simp] theorem State.setBank_cfg (b : Bank) (s : State) : (s.setBank b).cfg = s.cfg := rfl
@[simp] theorem State.setBank_prog (b : Bank) (s : State) : (s.setBank b).prog = s.prog := rfl
@[simp] theorem State.setBank_bank (b : Bank) (s : State) : (s.setBank b).bank = b := rfl
@[simp] theorem State.setBank_force (b : Bank) (s : State) : (s.setBank b).force = s.force := rfl
@[simp] theorem State.setBank_prev (b : Bank) (s : State) : (s.setBank b).prev = s.prev := rfl
@[simp] theorem State.setBank_ctl (b : Bank) (s : State) : (s.setBank b).ctl = s.ctl := rfl
@[simp] theorem State.setBank_eng (b : Bank) (s : State) : (s.setBank b).eng = s.eng := rfl
@[simp] theorem State.setBank_rawDI (b : Bank) (s : State) : (s.setBank b).rawDI = s.rawDI := rfl
@[simp] theorem State.setBank_rawAI (b : Bank) (s : State) : (s.setBank b).rawAI = s.rawAI := rfl
@[simp] theorem State.setBank_rawDO (b : Bank) (s : State) : (s.setBank b).rawDO = s.rawDO := rfl
@[simp] theorem State.setBank_rawAO (b : Bank) (s : State) : (s.setBank b).rawAO = s.rawAO := rfl
@[simp] theorem State.setBank_phase (b : Bank) (s : State) : (s.setBank b).phase = s.phase := rfl
@[simp] theorem State.setBank_hostOps (b : Bank) (s : State) : (s.setBank b).hostOps = s.hostOps := rfl
@[simp] theorem State.setBank_answers (b : Bank) (s : State) : (s.setBank b).answers = s.answers := rfl
@[simp] theorem State.setBank_pending (b : Bank) (s : State) : (s.setBank b).pending = s.pending := rfl

@[simp] theorem State.enter_cfg (p : Phase) (s : State) : (s.enter p).cfg = s.cfg := rfl
@[simp] theorem State.enter_prog (p : Phase) (s : State) : (s.enter p).prog = s.prog := rfl
@[simp] theorem State.enter_bank (p : Phase) (s : State) : (s.enter p).bank = s.bank := rfl
@[simp] theorem State.enter_force (p : Phase) (s : State) : (s.enter p).force = s.force := rfl
@[simp] theorem State.enter_prev (p : Phase) (s : State) : (s.enter p).prev = s.prev := rfl
@[simp] theorem State.enter_ctl (p : Phase) (s : State) : (s.enter p).ctl = s.ctl := rfl
@[simp] theorem State.enter_eng (p : Phase) (s : State) : (s.enter p).eng = s.eng := rfl
@[simp] theorem State.enter_rawDI (p : Phase) (s : State) : (s.enter p).rawDI = s.rawDI := rfl
@[simp] theorem State.enter_rawAI (p : Phase) (s : State) : (s.enter p).rawAI = s.rawAI := rfl
@[simp] theorem State.enter_rawDO (p : Phase) (s : State) : (s.enter p).rawDO = s.rawDO := rfl
@[simp] theorem State.enter_rawAO (p : Phase) (s : State) : (s.enter p).rawAO = s.rawAO := rfl
@[simp] theorem State.enter_phase (p : Phase) (s : State) : (s.enter p).phase = p := rfl
@[simp] theorem State.enter_hostOps (p : Phase) (s : State) : (s.enter p).hostOps = s.hostOps := rfl
@[simp] theorem State.enter_answers (p : Phase) (s : State) : (s.enter p).answers = s.answers := rfl
@[simp] theorem State.enter_pending (p : Phase) (s : State) : (s.enter p).pending = s.pending := rfl

@[simp] theorem State.startRung_cfg (r : Nat) (s : State) : (s.startRung r).cfg = s.cfg := rfl
@[simp] theorem State.startRung_prog (r : Nat) (s : State) : (s.startRung r).prog = s.prog := rfl
@[simp] theorem State.startRung_bank (r : Nat) (s : State) : (s.startRung r).bank = s.bank := rfl
@[simp] theorem State.startRung_force (r : Nat) (s : State) : (s.startRung r).force = s.force := rfl
@[simp] theorem State.startRung_prev (r : Nat) (s : State) : (s.startRung r).prev = s.prev := rfl
@[simp] theorem State.startRung_ctl (r : Nat) (s : State) : (s.startRung r).ctl = s.ctl := rfl
@[simp] theorem State.startRung_eng (r : Nat) (s : State) : (s.startRung r).eng = ⟨.empty, r, 0#25, 0⟩ := rfl
@[simp] theorem State.startRung_rawDI (r : Nat) (s : State) : (s.startRung r).rawDI = s.rawDI := rfl
@[simp] theorem State.startRung_rawAI (r : Nat) (s : State) : (s.startRung r).rawAI = s.rawAI := rfl
@[simp] theorem State.startRung_rawDO (r : Nat) (s : State) : (s.startRung r).rawDO = s.rawDO := rfl
@[simp] theorem State.startRung_rawAO (r : Nat) (s : State) : (s.startRung r).rawAO = s.rawAO := rfl
@[simp] theorem State.startRung_phase (r : Nat) (s : State) : (s.startRung r).phase = .rung := rfl
@[simp] theorem State.startRung_hostOps (r : Nat) (s : State) : (s.startRung r).hostOps = s.hostOps := rfl
@[simp] theorem State.startRung_answers (r : Nat) (s : State) : (s.startRung r).answers = s.answers := rfl
@[simp] theorem State.startRung_pending (r : Nat) (s : State) : (s.startRung r).pending = s.pending := rfl

@[simp] theorem State.raise_cfg (e : ErrorKind) (w : Word) (s : State) : (s.raise e w).cfg = s.cfg := rfl
@[simp] theorem State.raise_prog (e : ErrorKind) (w : Word) (s : State) : (s.raise e w).prog = s.prog := rfl
@[simp] theorem State.raise_bank (e : ErrorKind) (w : Word) (s : State) : (s.raise e w).bank = s.bank := rfl
@[simp] theorem State.raise_force (e : ErrorKind) (w : Word) (s : State) : (s.raise e w).force = s.force := rfl
@[simp] theorem State.raise_prev (e : ErrorKind) (w : Word) (s : State) : (s.raise e w).prev = s.prev := rfl
@[simp] theorem State.raise_ctl (e : ErrorKind) (w : Word) (s : State) : (s.raise e w).ctl = ⟨.stopped, s.ctl.shutdownReq, some e, BitVec.ofNat 32 s.eng.ri, s.eng.pc.setWidth 32, w, s.ctl.delta⟩ := rfl
@[simp] theorem State.raise_eng (e : ErrorKind) (w : Word) (s : State) : (s.raise e w).eng = { s.eng with acc := .empty } := rfl
@[simp] theorem State.raise_rawDI (e : ErrorKind) (w : Word) (s : State) : (s.raise e w).rawDI = s.rawDI := rfl
@[simp] theorem State.raise_rawAI (e : ErrorKind) (w : Word) (s : State) : (s.raise e w).rawAI = s.rawAI := rfl
@[simp] theorem State.raise_rawDO (e : ErrorKind) (w : Word) (s : State) : (s.raise e w).rawDO = s.rawDO := rfl
@[simp] theorem State.raise_rawAO (e : ErrorKind) (w : Word) (s : State) : (s.raise e w).rawAO = s.rawAO := rfl
@[simp] theorem State.raise_phase (e : ErrorKind) (w : Word) (s : State) : (s.raise e w).phase = .tick := rfl
@[simp] theorem State.raise_hostOps (e : ErrorKind) (w : Word) (s : State) : (s.raise e w).hostOps = s.hostOps := rfl
@[simp] theorem State.raise_answers (e : ErrorKind) (w : Word) (s : State) : (s.raise e w).answers = s.answers := rfl
@[simp] theorem State.raise_pending (e : ErrorKind) (w : Word) (s : State) : (s.raise e w).pending = s.pending := rfl

@[simp] theorem State.requestShutdown_cfg (s : State) : (s.requestShutdown).cfg = s.cfg := rfl
@[simp] theorem State.requestShutdown_prog (s : State) : (s.requestShutdown).prog = s.prog := rfl
@[simp] theorem State.requestShutdown_bank (s : State) : (s.requestShutdown).bank = s.bank := rfl
@[simp] theorem State.requestShutdown_force (s : State) : (s.requestShutdown).force = s.force := rfl
@[simp] theorem State.requestShutdown_prev (s : State) : (s.requestShutdown).prev = s.prev := rfl
@[simp] theorem State.requestShutdown_ctl (s : State) : (s.requestShutdown).ctl = { s.ctl with shutdownReq := true } := rfl
@[simp] theorem State.requestShutdown_eng (s : State) : (s.requestShutdown).eng = s.eng := rfl
@[simp] theorem State.requestShutdown_rawDI (s : State) : (s.requestShutdown).rawDI = s.rawDI := rfl
@[simp] theorem State.requestShutdown_rawAI (s : State) : (s.requestShutdown).rawAI = s.rawAI := rfl
@[simp] theorem State.requestShutdown_rawDO (s : State) : (s.requestShutdown).rawDO = s.rawDO := rfl
@[simp] theorem State.requestShutdown_rawAO (s : State) : (s.requestShutdown).rawAO = s.rawAO := rfl
@[simp] theorem State.requestShutdown_phase (s : State) : (s.requestShutdown).phase = s.phase := rfl
@[simp] theorem State.requestShutdown_hostOps (s : State) : (s.requestShutdown).hostOps = s.hostOps := rfl
@[simp] theorem State.requestShutdown_answers (s : State) : (s.requestShutdown).answers = s.answers := rfl
@[simp] theorem State.requestShutdown_pending (s : State) : (s.requestShutdown).pending = s.pending := rfl

@[simp] theorem State.setForce_cfg (f : Forcing) (s : State) : (s.setForce f).cfg = s.cfg := rfl
@[simp] theorem State.setForce_prog (f : Forcing) (s : State) : (s.setForce f).prog = s.prog := rfl
@[simp] theorem State.setForce_bank (f : Forcing) (s : State) : (s.setForce f).bank = s.bank := rfl
@[simp] theorem State.setForce_force (f : Forcing) (s : State) : (s.setForce f).force = f := rfl
@[simp] theorem State.setForce_prev (f : Forcing) (s : State) : (s.setForce f).prev = s.prev := rfl
@[simp] theorem State.setForce_ctl (f : Forcing) (s : State) : (s.setForce f).ctl = s.ctl := rfl
@[simp] theorem State.setForce_eng (f : Forcing) (s : State) : (s.setForce f).eng = s.eng := rfl
@[simp] theorem State.setForce_rawDI (f : Forcing) (s : State) : (s.setForce f).rawDI = s.rawDI := rfl
@[simp] theorem State.setForce_rawAI (f : Forcing) (s : State) : (s.setForce f).rawAI = s.rawAI := rfl
@[simp] theorem State.setForce_rawDO (f : Forcing) (s : State) : (s.setForce f).rawDO = s.rawDO := rfl
@[simp] theorem State.setForce_rawAO (f : Forcing) (s : State) : (s.setForce f).rawAO = s.rawAO := rfl
@[simp] theorem State.setForce_phase (f : Forcing) (s : State) : (s.setForce f).phase = s.phase := rfl
@[simp] theorem State.setForce_hostOps (f : Forcing) (s : State) : (s.setForce f).hostOps = s.hostOps := rfl
@[simp] theorem State.setForce_answers (f : Forcing) (s : State) : (s.setForce f).answers = s.answers := rfl
@[simp] theorem State.setForce_pending (f : Forcing) (s : State) : (s.setForce f).pending = s.pending := rfl

@[simp] theorem finishRung_cfg (s : State) : (finishRung s).cfg = s.cfg := rfl
@[simp] theorem finishRung_prog (s : State) : (finishRung s).prog = s.prog := rfl
@[simp] theorem finishRung_bank (s : State) : (finishRung s).bank = s.bank := rfl
@[simp] theorem finishRung_force (s : State) : (finishRung s).force = s.force := rfl
@[simp] theorem finishRung_prev (s : State) : (finishRung s).prev = s.prev := rfl
@[simp] theorem finishRung_ctl (s : State) : (finishRung s).ctl = s.ctl := rfl
@[simp] theorem finishRung_eng (s : State) : (finishRung s).eng = { s.eng with ri := s.eng.ri + 1 } := rfl
@[simp] theorem finishRung_rawDI (s : State) : (finishRung s).rawDI = s.rawDI := rfl
@[simp] theorem finishRung_rawAI (s : State) : (finishRung s).rawAI = s.rawAI := rfl
@[simp] theorem finishRung_rawDO (s : State) : (finishRung s).rawDO = s.rawDO := rfl
@[simp] theorem finishRung_rawAO (s : State) : (finishRung s).rawAO = s.rawAO := rfl
@[simp] theorem finishRung_phase (s : State) : (finishRung s).phase = .execute := rfl
@[simp] theorem finishRung_hostOps (s : State) : (finishRung s).hostOps = s.hostOps := rfl
@[simp] theorem finishRung_answers (s : State) : (finishRung s).answers = s.answers := rfl
@[simp] theorem finishRung_pending (s : State) : (finishRung s).pending = s.pending := rfl

@[simp] theorem encodePhase_cfg (s : State) : (encodePhase s).cfg = s.cfg := rfl
@[simp] theorem encodePhase_prog (s : State) : (encodePhase s).prog = s.prog := rfl
@[simp] theorem encodePhase_bank (s : State) : (encodePhase s).bank = s.bank := rfl
@[simp] theorem encodePhase_force (s : State) : (encodePhase s).force = s.force := rfl
@[simp] theorem encodePhase_prev (s : State) : (encodePhase s).prev = s.prev := rfl
@[simp] theorem encodePhase_ctl (s : State) : (encodePhase s).ctl = s.ctl := rfl
@[simp] theorem encodePhase_eng (s : State) : (encodePhase s).eng = s.eng := rfl
@[simp] theorem encodePhase_rawDI (s : State) : (encodePhase s).rawDI = s.rawDI := rfl
@[simp] theorem encodePhase_rawAI (s : State) : (encodePhase s).rawAI = s.rawAI := rfl
@[simp] theorem encodePhase_rawDO (s : State) : (encodePhase s).rawDO = writeBytes (drivenByte s) (bitBytes s.cfg.nDO) s.rawDO := rfl
@[simp] theorem encodePhase_rawAO (s : State) : (encodePhase s).rawAO = writeWords (drivenWord s) s.cfg.ao.length s.rawAO := rfl
@[simp] theorem encodePhase_phase (s : State) : (encodePhase s).phase = s.phase := rfl
@[simp] theorem encodePhase_hostOps (s : State) : (encodePhase s).hostOps = s.hostOps := rfl
@[simp] theorem encodePhase_answers (s : State) : (encodePhase s).answers = s.answers := rfl
@[simp] theorem encodePhase_pending (s : State) : (encodePhase s).pending = s.pending := rfl

@[simp] theorem deltaPhase_cfg (s : State) : (deltaPhase s).cfg = s.cfg := rfl
@[simp] theorem deltaPhase_prog (s : State) : (deltaPhase s).prog = s.prog := rfl
@[simp] theorem deltaPhase_bank (s : State) : (deltaPhase s).bank = s.bank := rfl
@[simp] theorem deltaPhase_force (s : State) : (deltaPhase s).force = s.force := rfl
@[simp] theorem deltaPhase_prev (s : State) : (deltaPhase s).prev = ⟨s.bank, s.ctl.state, s.ctl.err⟩ := rfl
@[simp] theorem deltaPhase_ctl (s : State) : (deltaPhase s).ctl = { s.ctl with delta := deltaMask s } := rfl
@[simp] theorem deltaPhase_eng (s : State) : (deltaPhase s).eng = s.eng := rfl
@[simp] theorem deltaPhase_rawDI (s : State) : (deltaPhase s).rawDI = s.rawDI := rfl
@[simp] theorem deltaPhase_rawAI (s : State) : (deltaPhase s).rawAI = s.rawAI := rfl
@[simp] theorem deltaPhase_rawDO (s : State) : (deltaPhase s).rawDO = s.rawDO := rfl
@[simp] theorem deltaPhase_rawAO (s : State) : (deltaPhase s).rawAO = s.rawAO := rfl
@[simp] theorem deltaPhase_phase (s : State) : (deltaPhase s).phase = s.phase := rfl
@[simp] theorem deltaPhase_hostOps (s : State) : (deltaPhase s).hostOps = s.hostOps := rfl
@[simp] theorem deltaPhase_answers (s : State) : (deltaPhase s).answers = s.answers := rfl
@[simp] theorem deltaPhase_pending (s : State) : (deltaPhase s).pending = s.pending := rfl

@[simp] theorem decodePhase_cfg (s : State) : (decodePhase s).cfg = s.cfg := rfl
@[simp] theorem decodePhase_prog (s : State) : (decodePhase s).prog = s.prog := rfl
@[simp] theorem decodePhase_force (s : State) : (decodePhase s).force = s.force := rfl
@[simp] theorem decodePhase_prev (s : State) : (decodePhase s).prev = s.prev := rfl
@[simp] theorem decodePhase_ctl (s : State) : (decodePhase s).ctl = s.ctl := rfl
@[simp] theorem decodePhase_eng (s : State) : (decodePhase s).eng = s.eng := rfl
@[simp] theorem decodePhase_rawDI (s : State) : (decodePhase s).rawDI = s.rawDI := rfl
@[simp] theorem decodePhase_rawAI (s : State) : (decodePhase s).rawAI = s.rawAI := rfl
@[simp] theorem decodePhase_rawDO (s : State) : (decodePhase s).rawDO = s.rawDO := rfl
@[simp] theorem decodePhase_rawAO (s : State) : (decodePhase s).rawAO = s.rawAO := rfl
@[simp] theorem decodePhase_phase (s : State) : (decodePhase s).phase = s.phase := rfl
@[simp] theorem decodePhase_hostOps (s : State) : (decodePhase s).hostOps = s.hostOps := rfl
@[simp] theorem decodePhase_answers (s : State) : (decodePhase s).answers = s.answers := rfl
@[simp] theorem decodePhase_pending (s : State) : (decodePhase s).pending = s.pending := rfl

/-! ### START, STOP and the step count, which change one group of registers -/

@[simp] theorem State.start_cfg (s : State) : s.start.cfg = s.cfg := by
  unfold State.start; split <;> rfl
@[simp] theorem State.start_prog (s : State) : s.start.prog = s.prog := by
  unfold State.start; split <;> rfl
@[simp] theorem State.start_bank (s : State) : s.start.bank = s.bank := by
  unfold State.start; split <;> rfl
@[simp] theorem State.start_force (s : State) : s.start.force = s.force := by
  unfold State.start; split <;> rfl
@[simp] theorem State.start_prev (s : State) : s.start.prev = s.prev := by
  unfold State.start; split <;> rfl
@[simp] theorem State.start_eng (s : State) : s.start.eng = s.eng := by
  unfold State.start; split <;> rfl
@[simp] theorem State.start_rawDI (s : State) : s.start.rawDI = s.rawDI := by
  unfold State.start; split <;> rfl
@[simp] theorem State.start_rawAI (s : State) : s.start.rawAI = s.rawAI := by
  unfold State.start; split <;> rfl
@[simp] theorem State.start_rawDO (s : State) : s.start.rawDO = s.rawDO := by
  unfold State.start; split <;> rfl
@[simp] theorem State.start_rawAO (s : State) : s.start.rawAO = s.rawAO := by
  unfold State.start; split <;> rfl
@[simp] theorem State.start_phase (s : State) : s.start.phase = s.phase := by
  unfold State.start; split <;> rfl
@[simp] theorem State.start_hostOps (s : State) : s.start.hostOps = s.hostOps := by
  unfold State.start; split <;> rfl
@[simp] theorem State.start_answers (s : State) : s.start.answers = s.answers := by
  unfold State.start; split <;> rfl
@[simp] theorem State.start_pending (s : State) : s.start.pending = s.pending := by
  unfold State.start; split <;> rfl

@[simp] theorem State.stop_cfg (s : State) : s.stop.cfg = s.cfg := by
  unfold State.stop; split <;> rfl
@[simp] theorem State.stop_prog (s : State) : s.stop.prog = s.prog := by
  unfold State.stop; split <;> rfl
@[simp] theorem State.stop_bank (s : State) : s.stop.bank = s.bank := by
  unfold State.stop; split <;> rfl
@[simp] theorem State.stop_force (s : State) : s.stop.force = s.force := by
  unfold State.stop; split <;> rfl
@[simp] theorem State.stop_prev (s : State) : s.stop.prev = s.prev := by
  unfold State.stop; split <;> rfl
@[simp] theorem State.stop_eng (s : State) : s.stop.eng = s.eng := by
  unfold State.stop; split <;> rfl
@[simp] theorem State.stop_rawDI (s : State) : s.stop.rawDI = s.rawDI := by
  unfold State.stop; split <;> rfl
@[simp] theorem State.stop_rawAI (s : State) : s.stop.rawAI = s.rawAI := by
  unfold State.stop; split <;> rfl
@[simp] theorem State.stop_rawDO (s : State) : s.stop.rawDO = s.rawDO := by
  unfold State.stop; split <;> rfl
@[simp] theorem State.stop_rawAO (s : State) : s.stop.rawAO = s.rawAO := by
  unfold State.stop; split <;> rfl
@[simp] theorem State.stop_phase (s : State) : s.stop.phase = s.phase := by
  unfold State.stop; split <;> rfl
@[simp] theorem State.stop_hostOps (s : State) : s.stop.hostOps = s.hostOps := by
  unfold State.stop; split <;> rfl
@[simp] theorem State.stop_answers (s : State) : s.stop.answers = s.answers := by
  unfold State.stop; split <;> rfl
@[simp] theorem State.stop_pending (s : State) : s.stop.pending = s.pending := by
  unfold State.stop; split <;> rfl

@[simp] theorem countStep_cfg (s : State) : (countStep s).cfg = s.cfg := by
  unfold countStep; split <;> rfl
@[simp] theorem countStep_prog (s : State) : (countStep s).prog = s.prog := by
  unfold countStep; split <;> rfl
@[simp] theorem countStep_bank (s : State) : (countStep s).bank = s.bank := by
  unfold countStep; split <;> rfl
@[simp] theorem countStep_force (s : State) : (countStep s).force = s.force := by
  unfold countStep; split <;> rfl
@[simp] theorem countStep_prev (s : State) : (countStep s).prev = s.prev := by
  unfold countStep; split <;> rfl
@[simp] theorem countStep_ctl (s : State) : (countStep s).ctl = s.ctl := by
  unfold countStep; split <;> rfl
@[simp] theorem countStep_rawDI (s : State) : (countStep s).rawDI = s.rawDI := by
  unfold countStep; split <;> rfl
@[simp] theorem countStep_rawAI (s : State) : (countStep s).rawAI = s.rawAI := by
  unfold countStep; split <;> rfl
@[simp] theorem countStep_rawDO (s : State) : (countStep s).rawDO = s.rawDO := by
  unfold countStep; split <;> rfl
@[simp] theorem countStep_rawAO (s : State) : (countStep s).rawAO = s.rawAO := by
  unfold countStep; split <;> rfl
@[simp] theorem countStep_phase (s : State) : (countStep s).phase = s.phase := by
  unfold countStep; split <;> rfl
@[simp] theorem countStep_hostOps (s : State) : (countStep s).hostOps = s.hostOps := by
  unfold countStep; split <;> rfl
@[simp] theorem countStep_answers (s : State) : (countStep s).answers = s.answers := by
  unfold countStep; split <;> rfl
@[simp] theorem countStep_pending (s : State) : (countStep s).pending = s.pending := by
  unfold countStep; split <;> rfl
@[simp] theorem countStep_acc (s : State) : (countStep s).eng.acc = s.eng.acc := by
  unfold countStep; split <;> rfl
@[simp] theorem countStep_pc (s : State) : (countStep s).eng.pc = s.eng.pc := by
  unfold countStep; split <;> rfl
@[simp] theorem countStep_ri (s : State) : (countStep s).eng.ri = s.eng.ri := by
  unfold countStep; split <;> rfl

/-! ### Updates of the register bank -/

@[simp] theorem Bank.modDo_di (b : Bank) (i : Nat) (f : DoSlot → DoSlot) : (b.modDo i f).di = b.di := rfl
@[simp] theorem Bank.modDo_dout (b : Bank) (i : Nat) (f : DoSlot → DoSlot) : (b.modDo i f).dout = b.dout.modify i f := rfl
@[simp] theorem Bank.modDo_ai (b : Bank) (i : Nat) (f : DoSlot → DoSlot) : (b.modDo i f).ai = b.ai := rfl
@[simp] theorem Bank.modDo_ao (b : Bank) (i : Nat) (f : DoSlot → DoSlot) : (b.modDo i f).ao = b.ao := rfl
@[simp] theorem Bank.modDo_m (b : Bank) (i : Nat) (f : DoSlot → DoSlot) : (b.modDo i f).m = b.m := rfl
@[simp] theorem Bank.modDo_mr (b : Bank) (i : Nat) (f : DoSlot → DoSlot) : (b.modDo i f).mr = b.mr := rfl
@[simp] theorem Bank.modDo_t (b : Bank) (i : Nat) (f : DoSlot → DoSlot) : (b.modDo i f).t = b.t := rfl
@[simp] theorem Bank.modDo_b (b : Bank) (i : Nat) (f : DoSlot → DoSlot) : (b.modDo i f).b = b.b := rfl

@[simp] theorem Bank.setAo_di (b : Bank) (i : Nat) (v : F64) : (b.setAo i v).di = b.di := rfl
@[simp] theorem Bank.setAo_dout (b : Bank) (i : Nat) (v : F64) : (b.setAo i v).dout = b.dout := rfl
@[simp] theorem Bank.setAo_ai (b : Bank) (i : Nat) (v : F64) : (b.setAo i v).ai = b.ai := rfl
@[simp] theorem Bank.setAo_ao (b : Bank) (i : Nat) (v : F64) : (b.setAo i v).ao = b.ao.set i v := rfl
@[simp] theorem Bank.setAo_m (b : Bank) (i : Nat) (v : F64) : (b.setAo i v).m = b.m := rfl
@[simp] theorem Bank.setAo_mr (b : Bank) (i : Nat) (v : F64) : (b.setAo i v).mr = b.mr := rfl
@[simp] theorem Bank.setAo_t (b : Bank) (i : Nat) (v : F64) : (b.setAo i v).t = b.t := rfl
@[simp] theorem Bank.setAo_b (b : Bank) (i : Nat) (v : F64) : (b.setAo i v).b = b.b := rfl

@[simp] theorem Bank.modM_di (b : Bank) (i : Nat) (f : MemSlot → MemSlot) : (b.modM i f).di = b.di := rfl
@[simp] theorem Bank.modM_dout (b : Bank) (i : Nat) (f : MemSlot → MemSlot) : (b.modM i f).dout = b.dout := rfl
@[simp] theorem Bank.modM_ai (b : Bank) (i : Nat) (f : MemSlot → MemSlot) : (b.modM i f).ai = b.ai := rfl
@[simp] theorem Bank.modM_ao (b : Bank) (i : Nat) (f : MemSlot → MemSlot) : (b.modM i f).ao = b.ao := rfl
@[simp] theorem Bank.modM_m (b : Bank) (i : Nat) (f : MemSlot → MemSlot) : (b.modM i f).m = b.m.modify i f := rfl
@[simp] theorem Bank.modM_mr (b : Bank) (i : Nat) (f : MemSlot → MemSlot) : (b.modM i f).mr = b.mr := rfl
@[simp] theorem Bank.modM_t (b : Bank) (i : Nat) (f : MemSlot → MemSlot) : (b.modM i f).t = b.t := rfl
@[simp] theorem Bank.modM_b (b : Bank) (i : Nat) (f : MemSlot → MemSlot) : (b.modM i f).b = b.b := rfl

@[simp] theorem Bank.setMr_di (b : Bank) (i : Nat) (v : F64) : (b.setMr i v).di = b.di := rfl
@[simp] theorem Bank.setMr_dout (b : Bank) (i : Nat) (v : F64) : (b.setMr i v).dout = b.dout := rfl
@[simp] theorem Bank.setMr_ai (b : Bank) (i : Nat) (v : F64) : (b.setMr i v).ai = b.ai := rfl
@[simp] theorem Bank.setMr_ao (b : Bank) (i : Nat) (v : F64) : (b.setMr i v).ao = b.ao := rfl
@[simp] theorem Bank.setMr_m (b : Bank) (i : Nat) (v : F64) : (b.setMr i v).m = b.m := rfl
@[simp] theorem Bank.setMr_mr (b : Bank) (i : Nat) (v : F64) : (b.setMr i v).mr = b.mr.set i v := rfl
@[simp] theorem Bank.setMr_t (b : Bank) (i : Nat) (v : F64) : (b.setMr i v).t = b.t := rfl
@[simp] theorem Bank.setMr_b (b : Bank) (i : Nat) (v : F64) : (b.setMr i v).b = b.b := rfl

@[simp] theorem Bank.modT_di (b : Bank) (i : Nat) (f : TimerSlot → TimerSlot) : (b.modT i f).di = b.di := rfl
@[simp] theorem Bank.modT_dout (b : Bank) (i : Nat) (f : TimerSlot → TimerSlot) : (b.modT i f).dout = b.dout := rfl
@[simp] theorem Bank.modT_ai (b : Bank) (i : Nat) (f : TimerSlot → TimerSlot) : (b.modT i f).ai = b.ai := rfl
@[simp] theorem Bank.modT_ao (b : Bank) (i : Nat) (f : TimerSlot → TimerSlot) : (b.modT i f).ao = b.ao := rfl
@[simp] theorem Bank.modT_m (b : Bank) (i : Nat) (f : TimerSlot → TimerSlot) : (b.modT i f).m = b.m := rfl
@[simp] theorem Bank.modT_mr (b : Bank) (i : Nat) (f : TimerSlot → TimerSlot) : (b.modT i f).mr = b.mr := rfl
@[simp] theorem Bank.modT_t (b : Bank) (i : Nat) (f : TimerSlot → TimerSlot) : (b.modT i f).t = b.t.modify i f := rfl
@[simp] theorem Bank.modT_b (b : Bank) (i : Nat) (f : TimerSlot → TimerSlot) : (b.modT i f).b = b.b := rfl

@[simp] theorem Bank.clearPulses_di (b : Bank) : (b.clearPulses).di = b.di := rfl
@[simp] theorem Bank.clearPulses_ai (b : Bank) : (b.clearPulses).ai = b.ai := rfl
@[simp] theorem Bank.clearPulses_ao (b : Bank) : (b.clearPulses).ao = b.ao := rfl
@[simp] theorem Bank.clearPulses_mr (b : Bank) : (b.clearPulses).mr = b.mr := rfl
@[simp] theorem Bank.clearPulses_t (b : Bank) : (b.clearPulses).t = b.t := rfl
@[simp] theorem Bank.clearPulses_b (b : Bank) : (b.clearPulses).b = b.b := rfl

@[simp] theorem Bank.tick_di (c : Cfg) (p b : Bank) : (Bank.tick c p b).di = b.di := rfl
@[simp] theorem Bank.tick_dout (c : Cfg) (p b : Bank) : (Bank.tick c p b).dout = b.dout := rfl
@[simp] theorem Bank.tick_ai (c : Cfg) (p b : Bank) : (Bank.tick c p b).ai = b.ai := rfl
@[simp] theorem Bank.tick_ao (c : Cfg) (p b : Bank) : (Bank.tick c p b).ao = b.ao := rfl
@[simp] theorem Bank.tick_mr (c : Cfg) (p b : Bank) : (Bank.tick c p b).mr = b.mr := rfl

/-! ### The fields of the machine right after reset -/

@[simp] theorem State.ofConfig_cfg (c : Cfg) (p : Program) : (State.ofConfig c p).cfg = c := rfl
@[simp] theorem State.ofConfig_prog (c : Cfg) (p : Program) : (State.ofConfig c p).prog = p := rfl
@[simp] theorem State.ofConfig_bank (c : Cfg) (p : Program) : (State.ofConfig c p).bank = Bank.reset c := rfl
@[simp] theorem State.ofConfig_force (c : Cfg) (p : Program) : (State.ofConfig c p).force = Forcing.reset c := rfl
@[simp] theorem State.ofConfig_prev (c : Cfg) (p : Program) : (State.ofConfig c p).prev = ⟨Bank.reset c, .stopped, none⟩ := rfl
@[simp] theorem State.ofConfig_ctl (c : Cfg) (p : Program) : (State.ofConfig c p).ctl = Controller.reset := rfl
@[simp] theorem State.ofConfig_eng (c : Cfg) (p : Program) : (State.ofConfig c p).eng = ⟨.empty, 0, 0#25, 0⟩ := rfl
@[simp] theorem State.ofConfig_rawDI (c : Cfg) (p : Program) : (State.ofConfig c p).rawDI = [] := rfl
@[simp] theorem State.ofConfig_rawAI (c : Cfg) (p : Program) : (State.ofConfig c p).rawAI = [] := rfl
@[simp] theorem State.ofConfig_rawDO (c : Cfg) (p : Program) : (State.ofConfig c p).rawDO = [] := rfl
@[simp] theorem State.ofConfig_rawAO (c : Cfg) (p : Program) : (State.ofConfig c p).rawAO = [] := rfl
@[simp] theorem State.ofConfig_phase (c : Cfg) (p : Program) : (State.ofConfig c p).phase = .boundary := rfl
@[simp] theorem State.ofConfig_hostOps (c : Cfg) (p : Program) : (State.ofConfig c p).hostOps = [] := rfl
@[simp] theorem State.ofConfig_answers (c : Cfg) (p : Program) : (State.ofConfig c p).answers = [] := rfl
@[simp] theorem State.ofConfig_pending (c : Cfg) (p : Program) : (State.ofConfig c p).pending = [] := rfl

end Sys2Proof.Machine
end

