-- ==== Sys2Proof/Laws/Bank.lean ====
section
/-! SUPPORT. The slots of the register bank after an update: a changed slot holds its new value when it exists, and
every other slot is as before. -/

namespace Sys2Proof.Machine

open Sys2Proof

theorem getD_modify {α : Type} (l : List α) (i j : Nat) (f : α → α) (d : α) :
    (l.modify i f).getD j d = if i = j ∧ j < l.length then f (l.getD j d) else l.getD j d := by
  by_cases h : j < l.length
  · simp [List.getD_eq_getElem?_getD, h]
    split <;> simp_all
  · simp [List.getD_eq_getElem?_getD, h]

theorem getD_set {α : Type} (l : List α) (i j : Nat) (v d : α) :
    (l.set i v).getD j d = if i = j ∧ j < l.length then v else l.getD j d := by
  by_cases h : j < l.length
  · by_cases hij : i = j
    · subst hij; simp [List.getD_eq_getElem?_getD, h]
    · simp [List.getD_eq_getElem?_getD, hij]
  · by_cases hij : i = j <;> simp [List.getD_eq_getElem?_getD, h, hij]

theorem getD_mapIdx {α : Type} (l : List α) (f : Nat → α → α) (j : Nat) (d : α) :
    (l.mapIdx f).getD j d = if j < l.length then f j (l.getD j d) else d := by
  by_cases h : j < l.length <;> simp [List.getD_eq_getElem?_getD, h]

theorem getD_map {α β : Type} (l : List α) (f : α → β) (j : Nat) (d : α) (e : β) :
    (l.map f).getD j e = if j < l.length then f (l.getD j d) else e := by
  by_cases h : j < l.length <;> simp [List.getD_eq_getElem?_getD, h]

theorem getD_of_length_le {α : Type} (l : List α) (j : Nat) (d : α) (h : l.length ≤ j) : l.getD j d = d := by
  simp [List.getD_eq_getElem?_getD, h]

/-! ### Digital outputs -/

theorem Bank.doAt_modDo (b : Bank) (i j : Nat) (f : DoSlot → DoSlot) :
    (b.modDo i f).doAt j = if i = j ∧ j < b.dout.length then f (b.doAt j) else b.doAt j :=
  getD_modify b.dout i j f default

@[simp] theorem Bank.doAt_setAo (b : Bank) (i j : Nat) (v : F64) : (b.setAo i v).doAt j = b.doAt j := rfl
@[simp] theorem Bank.doAt_modM (b : Bank) (i j : Nat) (f : MemSlot → MemSlot) : (b.modM i f).doAt j = b.doAt j := rfl
@[simp] theorem Bank.doAt_setMr (b : Bank) (i j : Nat) (v : F64) : (b.setMr i v).doAt j = b.doAt j := rfl
@[simp] theorem Bank.doAt_modT (b : Bank) (i j : Nat) (f : TimerSlot → TimerSlot) : (b.modT i f).doAt j = b.doAt j := rfl

/-! ### Analog outputs -/

theorem Bank.aoAt_setAo (b : Bank) (i j : Nat) (v : F64) :
    (b.setAo i v).aoAt j = if i = j ∧ j < b.ao.length then v else b.aoAt j :=
  getD_set b.ao i j v F64.zero

@[simp] theorem Bank.aoAt_modDo (b : Bank) (i j : Nat) (f : DoSlot → DoSlot) : (b.modDo i f).aoAt j = b.aoAt j := rfl
@[simp] theorem Bank.aoAt_modM (b : Bank) (i j : Nat) (f : MemSlot → MemSlot) : (b.modM i f).aoAt j = b.aoAt j := rfl
@[simp] theorem Bank.aoAt_setMr (b : Bank) (i j : Nat) (v : F64) : (b.setMr i v).aoAt j = b.aoAt j := rfl
@[simp] theorem Bank.aoAt_modT (b : Bank) (i j : Nat) (f : TimerSlot → TimerSlot) : (b.modT i f).aoAt j = b.aoAt j := rfl

/-! ### Integer memory -/

theorem Bank.mAt_modM (b : Bank) (i j : Nat) (f : MemSlot → MemSlot) :
    (b.modM i f).mAt j = if i = j ∧ j < b.m.length then f (b.mAt j) else b.mAt j :=
  getD_modify b.m i j f default

@[simp] theorem Bank.mAt_modDo (b : Bank) (i j : Nat) (f : DoSlot → DoSlot) : (b.modDo i f).mAt j = b.mAt j := rfl
@[simp] theorem Bank.mAt_setAo (b : Bank) (i j : Nat) (v : F64) : (b.setAo i v).mAt j = b.mAt j := rfl
@[simp] theorem Bank.mAt_setMr (b : Bank) (i j : Nat) (v : F64) : (b.setMr i v).mAt j = b.mAt j := rfl
@[simp] theorem Bank.mAt_modT (b : Bank) (i j : Nat) (f : TimerSlot → TimerSlot) : (b.modT i f).mAt j = b.mAt j := rfl

/-! ### Real memory -/

theorem Bank.mrAt_setMr (b : Bank) (i j : Nat) (v : F64) :
    (b.setMr i v).mrAt j = if i = j ∧ j < b.mr.length then v else b.mrAt j :=
  getD_set b.mr i j v F64.zero

@[simp] theorem Bank.mrAt_modDo (b : Bank) (i j : Nat) (f : DoSlot → DoSlot) : (b.modDo i f).mrAt j = b.mrAt j := rfl
@[simp] theorem Bank.mrAt_setAo (b : Bank) (i j : Nat) (v : F64) : (b.setAo i v).mrAt j = b.mrAt j := rfl
@[simp] theorem Bank.mrAt_modM (b : Bank) (i j : Nat) (f : MemSlot → MemSlot) : (b.modM i f).mrAt j = b.mrAt j := rfl
@[simp] theorem Bank.mrAt_modT (b : Bank) (i j : Nat) (f : TimerSlot → TimerSlot) : (b.modT i f).mrAt j = b.mrAt j := rfl

/-! ### Timers -/

theorem Bank.tAt_modT (b : Bank) (i j : Nat) (f : TimerSlot → TimerSlot) :
    (b.modT i f).tAt j = if i = j ∧ j < b.t.length then f (b.tAt j) else b.tAt j :=
  getD_modify b.t i j f default

@[simp] theorem Bank.tAt_modDo (b : Bank) (i j : Nat) (f : DoSlot → DoSlot) : (b.modDo i f).tAt j = b.tAt j := rfl
@[simp] theorem Bank.tAt_setAo (b : Bank) (i j : Nat) (v : F64) : (b.setAo i v).tAt j = b.tAt j := rfl
@[simp] theorem Bank.tAt_modM (b : Bank) (i j : Nat) (f : MemSlot → MemSlot) : (b.modM i f).tAt j = b.tAt j := rfl
@[simp] theorem Bank.tAt_setMr (b : Bank) (i j : Nat) (v : F64) : (b.setMr i v).tAt j = b.tAt j := rfl

/-! ### Decode phase -/

theorem Bank.doAt_clearPulses (b : Bank) (j : Nat) : b.clearPulses.doAt j = ⟨(b.doAt j).q, false, false⟩ := by
  unfold Bank.doAt Bank.clearPulses
  rw [getD_map _ _ _ (default : DoSlot)]
  split
  · rfl
  · rw [getD_of_length_le _ _ _ (by omega)]; rfl

theorem Bank.mAt_clearPulses (b : Bank) (j : Nat) :
    b.clearPulses.mAt j = ⟨(b.mAt j).v, (b.mAt j).pulse, (b.mAt j).edge, false, false⟩ := by
  unfold Bank.mAt Bank.clearPulses
  rw [getD_map _ _ _ (default : MemSlot)]
  split
  · rfl
  · rw [getD_of_length_le _ _ _ (by omega)]; rfl

theorem decodePhase_diAt (s : State) (j : Nat) (h : j < s.bank.di.length) :
    (decodePhase s).bank.diAt j = decodedDi s j := by
  show (s.bank.clearPulses.di.mapIdx _).getD j default = _
  rw [getD_mapIdx]; simp [h]

theorem decodePhase_aiAt (s : State) (j : Nat) (h : j < s.bank.ai.length) :
    (decodePhase s).bank.aiAt j = decodedReal s j := by
  show (s.bank.clearPulses.ai.mapIdx _).getD j F64.zero = _
  rw [getD_mapIdx]; simp [h]

@[simp] theorem decodePhase_bank_dout (s : State) : (decodePhase s).bank.dout = s.bank.clearPulses.dout := rfl
@[simp] theorem decodePhase_bank_m (s : State) : (decodePhase s).bank.m = s.bank.clearPulses.m := rfl
@[simp] theorem decodePhase_bank_ao (s : State) : (decodePhase s).bank.ao = s.bank.ao := rfl
@[simp] theorem decodePhase_bank_mr (s : State) : (decodePhase s).bank.mr = s.bank.mr := rfl
@[simp] theorem decodePhase_bank_t (s : State) : (decodePhase s).bank.t = s.bank.t := rfl
@[simp] theorem decodePhase_bank_b (s : State) : (decodePhase s).bank.b = s.bank.b := rfl

/-! ### Tick phase -/

theorem Bank.tick_tAt (c : Cfg) (p b : Bank) (j : Nat) (h : j < b.t.length) :
    (Bank.tick c p b).tAt j = tickTimer (timerCfgAt c j) (b.tAt j) := by
  show (b.t.mapIdx _).getD j default = _
  rw [getD_mapIdx, if_pos h]; rfl

theorem Bank.tick_bAt (c : Cfg) (p b : Bank) (j : Nat) (h : j < b.b.length) :
    (Bank.tick c p b).bAt j = tickBlinker (blinkerScaleAt c j) (b.bAt j) := by
  show (b.b.mapIdx _).getD j default = _
  rw [getD_mapIdx, if_pos h]; rfl

theorem Bank.tick_mAt (c : Cfg) (p b : Bank) (j : Nat) (h : j < b.m.length) :
    (Bank.tick c p b).mAt j = tickCounter (memDown c j) (p.mAt j).pulse (b.mAt j) := by
  show (b.m.mapIdx _).getD j default = _
  rw [getD_mapIdx, if_pos h]; rfl

end Sys2Proof.Machine
end

