-- ==== Sys2Proof/Laws/Memory.lean ====
section
/-! SUPPORT. Byte memory: what a read finds after a write, every write keeps the canonical form, two canonical
memories that read alike are equal, and the big-endian accesses of spec/20_memory.md R63. -/

namespace Sys2Proof.Machine

open Sys2Proof

@[simp] theorem Memory.read_nil (a : Nat) : Memory.read [] a = 0#8 := rfl

theorem Memory.read_cons (b : Nat) (x : Byte) (m : Memory) (a : Nat) :
    Memory.read ((b, x) :: m) a = if a = b then x else m.read a := rfl

theorem Memory.read_cell_append (a : Nat) (v : Byte) (m : Memory) (c : Nat) (h : v = 0#8 → m.read a = 0#8) :
    Memory.read (Memory.cell a v ++ m) c = if c = a then v else m.read c := by
  unfold Memory.cell
  split
  · rename_i hv; subst hv
    by_cases hc : c = a
    · subst hc; simpa using h rfl
    · simp [hc]
  · simp [Memory.read_cons]

theorem Memory.wfFrom_cell_append (lo a : Nat) (v : Byte) (m : Memory) (ha : lo ≤ a)
    (hm : Memory.wfFrom (a + 1) m = true) (mono : ∀ l, l ≤ a + 1 → Memory.wfFrom l m = true) :
    Memory.wfFrom lo (Memory.cell a v ++ m) = true := by
  unfold Memory.cell
  split
  · exact mono lo (by omega)
  · rename_i hv; simp [Memory.wfFrom, ha, hm, hv]

theorem Memory.wfFrom_mono {m : Memory} {lo hi : Nat} (h : lo ≤ hi) (hm : Memory.wfFrom hi m = true) :
    Memory.wfFrom lo m = true := by
  cases m with
  | nil => rfl
  | cons p m => simp [Memory.wfFrom] at hm ⊢; exact ⟨⟨by omega, hm.1.2⟩, hm.2⟩

/-- An address below the canonical range reads as 0. -/
theorem Memory.read_of_wfFrom {m : Memory} {lo a : Nat} (hm : Memory.wfFrom lo m = true) (h : a < lo) :
    m.read a = 0#8 := by
  induction m generalizing lo with
  | nil => rfl
  | cons p m ih =>
    obtain ⟨b, x⟩ := p
    simp [Memory.wfFrom] at hm
    rw [Memory.read_cons, if_neg (by omega)]
    exact ih hm.2 (by omega)

/-- A canonical memory after a write is canonical. -/
theorem Memory.wfFrom_write {m : Memory} {lo a : Nat} (v : Byte) (hm : Memory.wfFrom lo m = true) (ha : lo ≤ a) :
    Memory.wfFrom lo (m.write a v) = true := by
  induction m generalizing lo with
  | nil =>
    simpa [Memory.write] using Memory.wfFrom_cell_append lo a v [] ha rfl (fun _ _ => rfl)
  | cons p m ih =>
    obtain ⟨b, x⟩ := p
    simp [Memory.wfFrom] at hm
    unfold Memory.write
    split
    · rename_i h
      have hw : Memory.wfFrom (a + 1) ((b, x) :: m) = true := by simp [Memory.wfFrom, hm]; omega
      exact Memory.wfFrom_cell_append lo a v _ ha hw fun l hl => Memory.wfFrom_mono hl hw
    · split
      · rename_i h; subst h
        exact Memory.wfFrom_cell_append lo a v _ ha hm.2 fun l hl => Memory.wfFrom_mono hl hm.2
      · simp [Memory.wfFrom, hm]
        exact ih hm.2 (by omega)

theorem Memory.wf_write {m : Memory} (a : Nat) (v : Byte) (hm : m.wf = true) : (m.write a v).wf = true :=
  Memory.wfFrom_write v hm (Nat.zero_le a)

/-- Read after write, in canonical memory. -/
theorem Memory.read_writeFrom {m : Memory} {lo : Nat} (a : Nat) (v : Byte) (c : Nat)
    (hm : Memory.wfFrom lo m = true) : (m.write a v).read c = if c = a then v else m.read c := by
  induction m generalizing lo with
  | nil => simpa [Memory.write] using Memory.read_cell_append a v [] c (fun _ => rfl)
  | cons p m ih =>
    obtain ⟨b, x⟩ := p
    simp [Memory.wfFrom] at hm
    unfold Memory.write
    split
    · rename_i h
      have hw : Memory.wfFrom (a + 1) ((b, x) :: m) = true := by simp [Memory.wfFrom, hm]; omega
      exact Memory.read_cell_append a v _ c fun _ => Memory.read_of_wfFrom hw (Nat.lt_succ_self a)
    · split
      · rename_i h; subst h
        rw [Memory.read_cell_append a v m c fun _ => Memory.read_of_wfFrom hm.2 (Nat.lt_succ_self a), Memory.read_cons]
        split <;> simp_all
      · rename_i h1 h2
        rw [Memory.read_cons, Memory.read_cons, ih hm.2]
        by_cases hb : c = b
        · subst hb; simp [Ne.symm h2]
        · simp [hb]

theorem Memory.read_write {m : Memory} (a : Nat) (v : Byte) (c : Nat) (hm : m.wf = true) :
    (m.write a v).read c = if c = a then v else m.read c :=
  Memory.read_writeFrom a v c hm

/-- The canonical form is unique: canonical memories that read alike are the same data. -/
theorem Memory.eq_of_read_eq {m n : Memory} {lo : Nat} (hm : Memory.wfFrom lo m = true)
    (hn : Memory.wfFrom lo n = true) (h : ∀ a, m.read a = n.read a) : m = n := by
  induction m generalizing n lo with
  | nil =>
    cases n with
    | nil => rfl
    | cons p n =>
      obtain ⟨b, x⟩ := p
      simp [Memory.wfFrom] at hn
      have := h b
      simp [Memory.read_cons] at this
      exact absurd this.symm hn.1.2
  | cons p m ih =>
    obtain ⟨b, x⟩ := p
    simp [Memory.wfFrom] at hm
    cases n with
    | nil =>
      have := h b
      simp [Memory.read_cons] at this
      exact absurd this hm.1.2
    | cons q n =>
      obtain ⟨c, y⟩ := q
      simp [Memory.wfFrom] at hn
      have hbc : b = c := by
        rcases Nat.lt_trichotomy b c with hlt | heq | hgt
        · have := h b
          rw [Memory.read_cons, if_pos rfl, Memory.read_cons, if_neg (by omega),
            Memory.read_of_wfFrom hn.2 (by omega)] at this
          exact absurd this hm.1.2
        · exact heq
        · have := h c
          rw [Memory.read_cons, if_neg (by omega), Memory.read_of_wfFrom hm.2 (by omega), Memory.read_cons,
            if_pos rfl] at this
          exact absurd this.symm hn.1.2
      subst hbc
      have hxy : x = y := by simpa [Memory.read_cons] using h b
      subst hxy
      have hmn : ∀ a, Memory.read m a = Memory.read n a := by
        intro a
        by_cases ha : a = b
        · subst ha
          rw [Memory.read_of_wfFrom hm.2 (Nat.lt_succ_self a), Memory.read_of_wfFrom hn.2 (Nat.lt_succ_self a)]
        · simpa [Memory.read_cons, ha] using h a
      rw [ih hm.2 hn.2 hmn]

theorem Memory.wf_writeBE {m : Memory} (a n v : Nat) (hm : m.wf = true) : (m.writeBE a n v).wf = true := by
  induction n generalizing m a v with
  | zero => exact hm
  | succ n ih => exact ih (a + 1) v (Memory.wf_write a _ hm)

/-- A big-endian write leaves every byte outside its range. -/
theorem Memory.read_writeBE_outside {m : Memory} (a n v c : Nat) (hm : m.wf = true) (h : c < a ∨ a + n ≤ c) :
    (m.writeBE a n v).read c = m.read c := by
  induction n generalizing m a v with
  | zero => rfl
  | succ n ih =>
    rw [Memory.writeBE, ih (a + 1) v (Memory.wf_write a _ hm) (by omega), Memory.read_write a _ c hm,
      if_neg (by omega)]

/-- A read below a write sees nothing of it. -/
theorem Memory.readBE_congr {m k : Memory} (a n : Nat) (h : ∀ c, a ≤ c → c < a + n → m.read c = k.read c) :
    m.readBE a n = k.readBE a n := by
  induction n generalizing a with
  | zero => rfl
  | succ n ih =>
    rw [Memory.readBE, Memory.readBE, h a (Nat.le_refl a) (by omega), ih (a + 1) fun c h1 h2 => h c (by omega) (by omega)]

theorem Memory.readBE_lt (m : Memory) (a n : Nat) : m.readBE a n < 256 ^ n := by
  induction n generalizing a with
  | zero => simp [Memory.readBE]
  | succ n ih =>
    have h1 := ih (a + 1)
    have h2 : (m.read a).toNat < 256 := (m.read a).isLt
    have h3 : (m.read a).toNat * 256 ^ n ≤ 255 * 256 ^ n := Nat.mul_le_mul_right _ (by omega)
    simp only [Memory.readBE, Nat.pow_succ]
    omega

end Sys2Proof.Machine
end

