-- ==== Sys2Proof/Laws/Ops.lean ====
section
/-! SUPPORT. One lemma per shared operation, saying once everything it can do; the provers cite these instead of
unfolding. -/

namespace Sys2Proof.Machine

open Sys2Proof

/-! ### The operations of the instruction families -/

theorem loadOp_cases (k : Kind) (i : Index) (w : Word) (s : State) :
    (count s.cfg k ≤ i.toNat ∧ loadOp k i w s = s.raise .badIndex w)
    ∨ (i.toNat < count s.cfg k ∧ loadOp k i w s = (s.setAcc (.val (readOp s.bank k i.toNat))).advance) := by
  unfold loadOp
  split
  · exact .inr ⟨‹_›, rfl⟩
  · exact .inl ⟨by omega, rfl⟩

theorem combineOp_cases (f : Bool → Bool → Bool) (k : Kind) (i : Index) (w : Word) (s : State) :
    (count s.cfg k ≤ i.toNat ∧ combineOp f k i w s = s.raise .badIndex w)
    ∨ (i.toNat < count s.cfg k ∧ s.eng.acc = .empty ∧ combineOp f k i w s = s.raise .badProg w)
    ∨ (i.toNat < count s.cfg k ∧ ∃ a, s.eng.acc = .val a ∧ combineOp f k i w s =
        (s.setAcc (.val (.bool (f (truth s.cfg.realEpsilon a)
          (truth s.cfg.realEpsilon (readOp s.bank k i.toNat)))))).advance) := by
  unfold combineOp
  split
  · rename_i h
    split <;> rename_i ha
    · exact .inr (.inl ⟨h, ha, rfl⟩)
    · exact .inr (.inr ⟨h, _, ha, rfl⟩)
  · exact .inl ⟨by omega, rfl⟩

theorem storeOp_cases (k : Kind) (i : Index) (wr : Value → Bank → Bank) (w : Word) (s : State) :
    (count s.cfg k ≤ i.toNat ∧ storeOp k i wr w s = s.raise .badIndex w)
    ∨ (i.toNat < count s.cfg k ∧ s.eng.acc = .empty ∧ storeOp k i wr w s = s.raise .badProg w)
    ∨ (i.toNat < count s.cfg k ∧ (∃ v, s.eng.acc = .val v) ∧ readOnly s.cfg k i.toNat = true
        ∧ storeOp k i wr w s = s.raise .badOperand w)
    ∨ (i.toNat < count s.cfg k ∧ readOnly s.cfg k i.toNat = false
        ∧ ∃ v, s.eng.acc = .val v ∧ storeOp k i wr w s = (s.setBank (wr v s.bank)).advance) := by
  unfold storeOp
  split
  · rename_i h
    split
    · exact .inr (.inl ⟨h, ‹_›, rfl⟩)
    · rename_i v hv
      split
      · exact .inr (.inr (.inl ⟨h, ⟨v, hv⟩, ‹_›, rfl⟩))
      · rename_i hr; exact .inr (.inr (.inr ⟨h, by simpa using hr, v, hv, rfl⟩))
  · exact .inl ⟨by omega, rfl⟩

theorem setOp_cases (k : Kind) (i : Index) (wr : Bank → Bank) (w : Word) (s : State) :
    (count s.cfg k ≤ i.toNat ∧ setOp k i wr w s = s.raise .badIndex w)
    ∨ (i.toNat < count s.cfg k ∧ s.eng.acc = .empty ∧ setOp k i wr w s = s.raise .badProg w)
    ∨ (i.toNat < count s.cfg k ∧ (∃ v, s.eng.acc = .val v ∧ truth s.cfg.realEpsilon v = false)
        ∧ setOp k i wr w s = s.advance)
    ∨ (i.toNat < count s.cfg k ∧ (∃ v, s.eng.acc = .val v ∧ truth s.cfg.realEpsilon v = true)
        ∧ readOnly s.cfg k i.toNat = true ∧ setOp k i wr w s = s.raise .badOperand w)
    ∨ (i.toNat < count s.cfg k ∧ (∃ v, s.eng.acc = .val v ∧ truth s.cfg.realEpsilon v = true)
        ∧ readOnly s.cfg k i.toNat = false ∧ setOp k i wr w s = (s.setBank (wr s.bank)).advance) := by
  unfold setOp
  split
  · rename_i h
    split
    · exact .inr (.inl ⟨h, ‹_›, rfl⟩)
    · rename_i v hv
      split
      · rename_i ht
        split
        · exact .inr (.inr (.inr (.inl ⟨h, ⟨v, hv, ht⟩, ‹_›, rfl⟩)))
        · rename_i hr; exact .inr (.inr (.inr (.inr ⟨h, ⟨v, hv, ht⟩, by simpa using hr, rfl⟩)))
      · rename_i ht; exact .inr (.inr (.inl ⟨h, ⟨v, hv, by simpa using ht⟩, rfl⟩))
  · exact .inl ⟨by omega, rfl⟩

theorem jumpOp_cases (t : Index) (w : Word) (s : State) :
    (s.rungLen ≤ t.toNat ∧ jumpOp t w s = s.raise .badProg w)
    ∨ (t.toNat < s.rungLen ∧ s.eng.acc = .empty ∧ jumpOp t w s = s.raise .badProg w)
    ∨ (t.toNat < s.rungLen ∧ (∃ v, s.eng.acc = .val v ∧ truth s.cfg.realEpsilon v = true)
        ∧ jumpOp t w s = s.setPc (t.setWidth 25))
    ∨ (t.toNat < s.rungLen ∧ (∃ v, s.eng.acc = .val v ∧ truth s.cfg.realEpsilon v = false)
        ∧ jumpOp t w s = s.advance) := by
  unfold jumpOp
  split
  · rename_i h
    split
    · exact .inr (.inl ⟨h, ‹_›, rfl⟩)
    · rename_i v hv
      split
      · exact .inr (.inr (.inl ⟨h, ⟨v, hv, ‹_›⟩, rfl⟩))
      · rename_i ht; exact .inr (.inr (.inr ⟨h, ⟨v, hv, by simpa using ht⟩, rfl⟩))
  · exact .inl ⟨by omega, rfl⟩

/-- No instruction faults and none is refused: an error an instruction raises is a next state (60_exceptions.md
R255). -/
theorem exec_next (i : Instr) (s : State) : ∃ t, exec i s = .next t := by
  cases i <;> exact ⟨_, rfl⟩

/-! ### Fetch, tick and host operations -/

theorem fetch_cases (s : State) :
    (s.prog.rungs[s.eng.ri]? = none ∧ fetch s = .fault .noSuchRung)
    ∨ ∃ r, s.prog.rungs[s.eng.ri]? = some r ∧
      ((s.eng.pc.toNat = r.len ∧ fetch s = .complete)
      ∨ (s.eng.pc.toNat ≠ r.len ∧ r.base + s.eng.pc.toNat < s.prog.words
          ∧ fetch s = .word (s.prog.word (r.base + s.eng.pc.toNat)))
      ∨ (s.eng.pc.toNat ≠ r.len ∧ s.prog.words ≤ r.base + s.eng.pc.toNat
          ∧ fetch s = .fault .fetchOutsideStore)) := by
  unfold fetch
  split
  · exact .inl ⟨‹_›, rfl⟩
  · rename_i r hr
    refine .inr ⟨r, hr, ?_⟩
    split
    · exact .inl ⟨‹_›, rfl⟩
    · split
      · exact .inr (.inl ⟨‹_›, ‹_›, rfl⟩)
      · exact .inr (.inr ⟨‹_›, by omega, rfl⟩)

theorem tickPhase_cases (s : State) :
    (s.ctl.state ≠ .running ∧ tickPhase s = .next s)
    ∨ (s.ctl.state = .running ∧ hasOffDelay s.cfg = true ∧ tickPhase s = .refused .offDelayTimer)
    ∨ (s.ctl.state = .running ∧ hasOffDelay s.cfg = false
        ∧ tickPhase s = .next (s.setBank (Bank.tick s.cfg s.prev.bank s.bank))) := by
  unfold tickPhase
  split
  · rename_i h
    split
    · exact .inr (.inl ⟨h, ‹_›, rfl⟩)
    · rename_i ho; exact .inr (.inr ⟨h, by simpa using ho, rfl⟩)
  · rename_i h; exact .inl ⟨by simp [h], rfl⟩
  · rename_i h; exact .inl ⟨by simp [h], rfl⟩

theorem forceOp_cases (n i : Nat) (f : Forcing) (s : State) :
    (i < n ∧ forceOp n i f s = (s.setForce f, .ok)) ∨ (n ≤ i ∧ forceOp n i f s = (s, .badIndex)) := by
  unfold forceOp
  split
  · exact .inl ⟨‹_›, rfl⟩
  · exact .inr ⟨by omega, rfl⟩

theorem queryOp_cases (n i : Nat) (b : Bool) (s : State) :
    (i < n ∧ queryOp n i b s = (s, .bit b)) ∨ (n ≤ i ∧ queryOp n i b s = (s, .badIndex)) := by
  unfold queryOp
  split
  · exact .inl ⟨‹_›, rfl⟩
  · exact .inr ⟨by omega, rfl⟩

/-- A host operation changes the controller registers and the forcing registers at most. -/
theorem applyOp_cases (op : HostOp) (s : State) :
    (applyOp op s).1 = s ∨ (applyOp op s).1 = s.start ∨ (applyOp op s).1 = s.stop
    ∨ (applyOp op s).1 = s.requestShutdown ∨ ∃ f, (applyOp op s).1 = s.setForce f := by
  have force : ∀ n i f, (forceOp n i f s).1 = s ∨ ∃ g, (forceOp n i f s).1 = s.setForce g := by
    intro n i f
    rcases forceOp_cases n i f s with ⟨_, h⟩ | ⟨_, h⟩
    · exact .inr ⟨f, by rw [h]⟩
    · exact .inl (by rw [h])
  have query : ∀ n i b, (queryOp n i b s).1 = s := by
    intro n i b
    rcases queryOp_cases n i b s with ⟨_, h⟩ | ⟨_, h⟩ <;> rw [h]
  cases op
  case start => exact .inr (.inl rfl)
  case stop => exact .inr (.inr (.inl rfl))
  case shutdown => exact .inr (.inr (.inr (.inl rfl)))
  case isInputForced => exact .inl (query _ _ _)
  case isOutputForced => exact .inl (query _ _ _)
  case isAIForced => exact .inl (query _ _ _)
  case isAOForced => exact .inl (query _ _ _)
  case readSnapshot => exact .inl rfl
  case readCsr => refine .inl ?_; unfold applyOp; dsimp only; split <;> rfl
  all_goals (rcases force _ _ _ with h | h <;> [exact .inl h; exact .inr (.inr (.inr (.inr h)))])

/-- A property that one host operation keeps is kept by the operations of a whole phase 5. -/
theorem applyOps_keeps {P : State → Prop} (step : ∀ op s, P s → P (applyOp op s).1) (ops : List HostOp) (s : State)
    (h : P s) : P (applyOps ops s).1 := by
  induction ops generalizing s with
  | nil => exact h
  | cons op ops ih => exact ih _ (step op s h)

theorem beginScan_cases (s : State) :
    (s.pending = [] ∧ beginScan s = s)
    ∨ ∃ x rest, s.pending = x :: rest ∧
      ((s.ctl.shutdownReq = true
          ∧ beginScan s = { s with ctl := { s.ctl with state := .terminated }, pending := rest })
      ∨ (s.ctl.shutdownReq = false ∧ beginScan s =
          { s with rawDI := x.rawDI, rawAI := x.rawAI, hostOps := x.ops, pending := rest, phase := .decode })) := by
  unfold beginScan
  split
  · exact .inl ⟨‹_›, rfl⟩
  · rename_i x rest h
    refine .inr ⟨x, rest, h, ?_⟩
    split
    · exact .inl ⟨‹_›, rfl⟩
    · rename_i hs; exact .inr ⟨by simpa using hs, rfl⟩

theorem stepBoundary_cases (s : State) :
    (s.ctl.state = .terminated ∧ stepBoundary s = .fault .runEnded)
    ∨ (s.ctl.state ≠ .terminated ∧ stepBoundary s = .next (beginScan s)) := by
  unfold stepBoundary
  split <;> rename_i h <;> simp [h]

/-- What a step can do, phase by phase. -/
theorem step_cases {s t : State} (h : step s = .next t) :
    (s.phase = .boundary ∧ s.ctl.state ≠ .terminated ∧ t = beginScan s)
    ∨ (s.phase = .decode ∧ t = stepDecode s)
    ∨ (s.phase = .execute ∧ t = stepLoop s)
    ∨ (s.phase = .rung ∧ fetch s = .complete ∧ t = finishRung s)
    ∨ (s.phase = .rung ∧ ∃ w, fetch s = .word w ∧ runWord w s = .next t)
    ∨ (s.phase = .tick ∧ ∃ u, tickPhase s = .next u ∧ t = u.enter .encode)
    ∨ (s.phase = .encode ∧ t = stepEncode s)
    ∨ (s.phase = .delta ∧ t = stepDelta s)
    ∨ (s.phase = .host ∧ t = stepHost s) := by
  unfold step at h
  cases hp : s.phase <;> simp only [hp] at h
  case boundary =>
    rcases stepBoundary_cases s with ⟨_, hb⟩ | ⟨ht, hb⟩ <;> rw [hb] at h
    · cases h
    · cases h; simp [ht]
  case rung =>
    unfold stepRung at h
    split at h
    · cases h; simp_all
    · rename_i w hw
      exact .inr (.inr (.inr (.inr (.inl ⟨rfl, w, hw, h⟩))))
    · cases h
  case tick =>
    unfold stepTick at h
    split at h
    · cases h; rename_i u hu; simp [hu]
    · cases h
    · cases h
  all_goals (cases h; simp)

/-- What a fetched word leads to. -/
theorem runWord_cases {w : Word} {s t : State} (h : runWord w s = .next t) :
    (limitReached s = true ∧ t = s.raise .badProg w)
    ∨ (limitReached s = false ∧ ∃ e, decodeWord w = .error e ∧ t = (countStep s).raise e w)
    ∨ (limitReached s = false ∧ ∃ i, decodeWord w = .ok i ∧ exec i (countStep s) = .next t) := by
  unfold runWord at h
  split at h
  · cases h; exact .inl ⟨‹_›, rfl⟩
  · rename_i hl
    split at h
    · rename_i e he; cases h; exact .inr (.inl ⟨by simpa using hl, e, he, rfl⟩)
    · rename_i i hi; exact .inr (.inr ⟨by simpa using hl, i, hi, h⟩)

end Sys2Proof.Machine
end

