-- ==== Sys2Proof/Laws/PerInstr.lean ====
section
/-! SUPPORT. One lemma per constructor of Instr, over its encoding: the INDEX field of the encoded word is the
instruction's operand, whole (spec/30_encoding.md R84, "never sign-extended, scaled or shifted"), and its KIND
field names the kind of slot the instruction reads or writes (R82). -/

namespace Sys2Proof.Laws.EncodeFields

open Sys2Proof

/-- The fields of the encoded word are those of the instruction. -/
def Statement (i : Instr) : Prop :=
  indexField (encode i) = i.index ∧ ∀ k, i.slotKind = some k → kindOf (kindField (encode i)) = some k

/-- The fields of a word written as its top byte and its INDEX field. -/
theorem fields_append (b : BitVec 8) (x : Index) :
    indexField (b ++ x) = x ∧ kindField (b ++ x) = b.extractLsb' 0 4 ∧ opField (b ++ x) = b.extractLsb' 4 4 := by
  have bit : ∀ j, BitVec.getLsbD (w := 32) (b ++ x) j = if j < 24 then x.getLsbD j else b.getLsbD (j - 24) :=
    fun j => BitVec.getLsbD_append
  refine ⟨?_, ?_, ?_⟩ <;> (apply BitVec.eq_of_getLsbD_eq; intro j hj)
  · simp only [indexField, BitVec.getLsbD_extractLsb', bit]; simp [hj]
  · simp only [kindField, BitVec.getLsbD_extractLsb', bit]
    rw [if_neg (by omega), show 24 + j - 24 = 0 + j by omega]
  · simp only [opField, BitVec.getLsbD_extractLsb', bit]
    rw [if_neg (by omega), show 28 + j - 24 = 4 + j by omega]

theorem ldDi (x : Index) : Statement (.ldDi x) := by
  refine ⟨(fields_append _ x).1, fun k h => ?_⟩
  show kindOf (kindField (_ ++ x)) = some k
  rw [(fields_append _ x).2.1, ← h]; rfl
theorem ldRe (x : Index) : Statement (.ldRe x) := by
  refine ⟨(fields_append _ x).1, fun k h => ?_⟩
  show kindOf (kindField (_ ++ x)) = some k
  rw [(fields_append _ x).2.1, ← h]; rfl
theorem ldFe (x : Index) : Statement (.ldFe x) := by
  refine ⟨(fields_append _ x).1, fun k h => ?_⟩
  show kindOf (kindField (_ ++ x)) = some k
  rw [(fields_append _ x).2.1, ← h]; rfl
theorem ldDo (x : Index) : Statement (.ldDo x) := by
  refine ⟨(fields_append _ x).1, fun k h => ?_⟩
  show kindOf (kindField (_ ++ x)) = some k
  rw [(fields_append _ x).2.1, ← h]; rfl
theorem ldAi (x : Index) : Statement (.ldAi x) := by
  refine ⟨(fields_append _ x).1, fun k h => ?_⟩
  show kindOf (kindField (_ ++ x)) = some k
  rw [(fields_append _ x).2.1, ← h]; rfl
theorem ldAo (x : Index) : Statement (.ldAo x) := by
  refine ⟨(fields_append _ x).1, fun k h => ?_⟩
  show kindOf (kindField (_ ++ x)) = some k
  rw [(fields_append _ x).2.1, ← h]; rfl
theorem ldM (x : Index) : Statement (.ldM x) := by
  refine ⟨(fields_append _ x).1, fun k h => ?_⟩
  show kindOf (kindField (_ ++ x)) = some k
  rw [(fields_append _ x).2.1, ← h]; rfl
theorem ldMr (x : Index) : Statement (.ldMr x) := by
  refine ⟨(fields_append _ x).1, fun k h => ?_⟩
  show kindOf (kindField (_ ++ x)) = some k
  rw [(fields_append _ x).2.1, ← h]; rfl
theorem ldT (x : Index) : Statement (.ldT x) := by
  refine ⟨(fields_append _ x).1, fun k h => ?_⟩
  show kindOf (kindField (_ ++ x)) = some k
  rw [(fields_append _ x).2.1, ← h]; rfl
theorem andDi (x : Index) : Statement (.andDi x) := by
  refine ⟨(fields_append _ x).1, fun k h => ?_⟩
  show kindOf (kindField (_ ++ x)) = some k
  rw [(fields_append _ x).2.1, ← h]; rfl
theorem andRe (x : Index) : Statement (.andRe x) := by
  refine ⟨(fields_append _ x).1, fun k h => ?_⟩
  show kindOf (kindField (_ ++ x)) = some k
  rw [(fields_append _ x).2.1, ← h]; rfl
theorem andFe (x : Index) : Statement (.andFe x) := by
  refine ⟨(fields_append _ x).1, fun k h => ?_⟩
  show kindOf (kindField (_ ++ x)) = some k
  rw [(fields_append _ x).2.1, ← h]; rfl
theorem andDo (x : Index) : Statement (.andDo x) := by
  refine ⟨(fields_append _ x).1, fun k h => ?_⟩
  show kindOf (kindField (_ ++ x)) = some k
  rw [(fields_append _ x).2.1, ← h]; rfl
theorem andAi (x : Index) : Statement (.andAi x) := by
  refine ⟨(fields_append _ x).1, fun k h => ?_⟩
  show kindOf (kindField (_ ++ x)) = some k
  rw [(fields_append _ x).2.1, ← h]; rfl
theorem andAo (x : Index) : Statement (.andAo x) := by
  refine ⟨(fields_append _ x).1, fun k h => ?_⟩
  show kindOf (kindField (_ ++ x)) = some k
  rw [(fields_append _ x).2.1, ← h]; rfl
theorem andM (x : Index) : Statement (.andM x) := by
  refine ⟨(fields_append _ x).1, fun k h => ?_⟩
  show kindOf (kindField (_ ++ x)) = some k
  rw [(fields_append _ x).2.1, ← h]; rfl
theorem andMr (x : Index) : Statement (.andMr x) := by
  refine ⟨(fields_append _ x).1, fun k h => ?_⟩
  show kindOf (kindField (_ ++ x)) = some k
  rw [(fields_append _ x).2.1, ← h]; rfl
theorem andT (x : Index) : Statement (.andT x) := by
  refine ⟨(fields_append _ x).1, fun k h => ?_⟩
  show kindOf (kindField (_ ++ x)) = some k
  rw [(fields_append _ x).2.1, ← h]; rfl
theorem orDi (x : Index) : Statement (.orDi x) := by
  refine ⟨(fields_append _ x).1, fun k h => ?_⟩
  show kindOf (kindField (_ ++ x)) = some k
  rw [(fields_append _ x).2.1, ← h]; rfl
theorem orRe (x : Index) : Statement (.orRe x) := by
  refine ⟨(fields_append _ x).1, fun k h => ?_⟩
  show kindOf (kindField (_ ++ x)) = some k
  rw [(fields_append _ x).2.1, ← h]; rfl
theorem orFe (x : Index) : Statement (.orFe x) := by
  refine ⟨(fields_append _ x).1, fun k h => ?_⟩
  show kindOf (kindField (_ ++ x)) = some k
  rw [(fields_append _ x).2.1, ← h]; rfl
theorem orDo (x : Index) : Statement (.orDo x) := by
  refine ⟨(fields_append _ x).1, fun k h => ?_⟩
  show kindOf (kindField (_ ++ x)) = some k
  rw [(fields_append _ x).2.1, ← h]; rfl
theorem orAi (x : Index) : Statement (.orAi x) := by
  refine ⟨(fields_append _ x).1, fun k h => ?_⟩
  show kindOf (kindField (_ ++ x)) = some k
  rw [(fields_append _ x).2.1, ← h]; rfl
theorem orAo (x : Index) : Statement (.orAo x) := by
  refine ⟨(fields_append _ x).1, fun k h => ?_⟩
  show kindOf (kindField (_ ++ x)) = some k
  rw [(fields_append _ x).2.1, ← h]; rfl
theorem orM (x : Index) : Statement (.orM x) := by
  refine ⟨(fields_append _ x).1, fun k h => ?_⟩
  show kindOf (kindField (_ ++ x)) = some k
  rw [(fields_append _ x).2.1, ← h]; rfl
theorem orMr (x : Index) : Statement (.orMr x) := by
  refine ⟨(fields_append _ x).1, fun k h => ?_⟩
  show kindOf (kindField (_ ++ x)) = some k
  rw [(fields_append _ x).2.1, ← h]; rfl
theorem orT (x : Index) : Statement (.orT x) := by
  refine ⟨(fields_append _ x).1, fun k h => ?_⟩
  show kindOf (kindField (_ ++ x)) = some k
  rw [(fields_append _ x).2.1, ← h]; rfl
theorem andnDi (x : Index) : Statement (.andnDi x) := by
  refine ⟨(fields_append _ x).1, fun k h => ?_⟩
  show kindOf (kindField (_ ++ x)) = some k
  rw [(fields_append _ x).2.1, ← h]; rfl
theorem andnRe (x : Index) : Statement (.andnRe x) := by
  refine ⟨(fields_append _ x).1, fun k h => ?_⟩
  show kindOf (kindField (_ ++ x)) = some k
  rw [(fields_append _ x).2.1, ← h]; rfl
theorem andnFe (x : Index) : Statement (.andnFe x) := by
  refine ⟨(fields_append _ x).1, fun k h => ?_⟩
  show kindOf (kindField (_ ++ x)) = some k
  rw [(fields_append _ x).2.1, ← h]; rfl
theorem andnDo (x : Index) : Statement (.andnDo x) := by
  refine ⟨(fields_append _ x).1, fun k h => ?_⟩
  show kindOf (kindField (_ ++ x)) = some k
  rw [(fields_append _ x).2.1, ← h]; rfl
theorem andnAi (x : Index) : Statement (.andnAi x) := by
  refine ⟨(fields_append _ x).1, fun k h => ?_⟩
  show kindOf (kindField (_ ++ x)) = some k
  rw [(fields_append _ x).2.1, ← h]; rfl
theorem andnAo (x : Index) : Statement (.andnAo x) := by
  refine ⟨(fields_append _ x).1, fun k h => ?_⟩
  show kindOf (kindField (_ ++ x)) = some k
  rw [(fields_append _ x).2.1, ← h]; rfl
theorem andnM (x : Index) : Statement (.andnM x) := by
  refine ⟨(fields_append _ x).1, fun k h => ?_⟩
  show kindOf (kindField (_ ++ x)) = some k
  rw [(fields_append _ x).2.1, ← h]; rfl
theorem andnMr (x : Index) : Statement (.andnMr x) := by
  refine ⟨(fields_append _ x).1, fun k h => ?_⟩
  show kindOf (kindField (_ ++ x)) = some k
  rw [(fields_append _ x).2.1, ← h]; rfl
theorem andnT (x : Index) : Statement (.andnT x) := by
  refine ⟨(fields_append _ x).1, fun k h => ?_⟩
  show kindOf (kindField (_ ++ x)) = some k
  rw [(fields_append _ x).2.1, ← h]; rfl
theorem ornDi (x : Index) : Statement (.ornDi x) := by
  refine ⟨(fields_append _ x).1, fun k h => ?_⟩
  show kindOf (kindField (_ ++ x)) = some k
  rw [(fields_append _ x).2.1, ← h]; rfl
theorem ornRe (x : Index) : Statement (.ornRe x) := by
  refine ⟨(fields_append _ x).1, fun k h => ?_⟩
  show kindOf (kindField (_ ++ x)) = some k
  rw [(fields_append _ x).2.1, ← h]; rfl
theorem ornFe (x : Index) : Statement (.ornFe x) := by
  refine ⟨(fields_append _ x).1, fun k h => ?_⟩
  show kindOf (kindField (_ ++ x)) = some k
  rw [(fields_append _ x).2.1, ← h]; rfl
theorem ornDo (x : Index) : Statement (.ornDo x) := by
  refine ⟨(fields_append _ x).1, fun k h => ?_⟩
  show kindOf (kindField (_ ++ x)) = some k
  rw [(fields_append _ x).2.1, ← h]; rfl
theorem ornAi (x : Index) : Statement (.ornAi x) := by
  refine ⟨(fields_append _ x).1, fun k h => ?_⟩
  show kindOf (kindField (_ ++ x)) = some k
  rw [(fields_append _ x).2.1, ← h]; rfl
theorem ornAo (x : Index) : Statement (.ornAo x) := by
  refine ⟨(fields_append _ x).1, fun k h => ?_⟩
  show kindOf (kindField (_ ++ x)) = some k
  rw [(fields_append _ x).2.1, ← h]; rfl
theorem ornM (x : Index) : Statement (.ornM x) := by
  refine ⟨(fields_append _ x).1, fun k h => ?_⟩
  show kindOf (kindField (_ ++ x)) = some k
  rw [(fields_append _ x).2.1, ← h]; rfl
theorem ornMr (x : Index) : Statement (.ornMr x) := by
  refine ⟨(fields_append _ x).1, fun k h => ?_⟩
  show kindOf (kindField (_ ++ x)) = some k
  rw [(fields_append _ x).2.1, ← h]; rfl
theorem ornT (x : Index) : Statement (.ornT x) := by
  refine ⟨(fields_append _ x).1, fun k h => ?_⟩
  show kindOf (kindField (_ ++ x)) = some k
  rw [(fields_append _ x).2.1, ← h]; rfl
theorem stDo (x : Index) : Statement (.stDo x) := by
  refine ⟨(fields_append _ x).1, fun k h => ?_⟩
  show kindOf (kindField (_ ++ x)) = some k
  rw [(fields_append _ x).2.1, ← h]; rfl
theorem stAo (x : Index) : Statement (.stAo x) := by
  refine ⟨(fields_append _ x).1, fun k h => ?_⟩
  show kindOf (kindField (_ ++ x)) = some k
  rw [(fields_append _ x).2.1, ← h]; rfl
theorem stM (x : Index) : Statement (.stM x) := by
  refine ⟨(fields_append _ x).1, fun k h => ?_⟩
  show kindOf (kindField (_ ++ x)) = some k
  rw [(fields_append _ x).2.1, ← h]; rfl
theorem stMr (x : Index) : Statement (.stMr x) := by
  refine ⟨(fields_append _ x).1, fun k h => ?_⟩
  show kindOf (kindField (_ ++ x)) = some k
  rw [(fields_append _ x).2.1, ← h]; rfl
theorem setDo (x : Index) : Statement (.setDo x) := by
  refine ⟨(fields_append _ x).1, fun k h => ?_⟩
  show kindOf (kindField (_ ++ x)) = some k
  rw [(fields_append _ x).2.1, ← h]; rfl
theorem setAo (x : Index) : Statement (.setAo x) := by
  refine ⟨(fields_append _ x).1, fun k h => ?_⟩
  show kindOf (kindField (_ ++ x)) = some k
  rw [(fields_append _ x).2.1, ← h]; rfl
theorem setM (x : Index) : Statement (.setM x) := by
  refine ⟨(fields_append _ x).1, fun k h => ?_⟩
  show kindOf (kindField (_ ++ x)) = some k
  rw [(fields_append _ x).2.1, ← h]; rfl
theorem setMr (x : Index) : Statement (.setMr x) := by
  refine ⟨(fields_append _ x).1, fun k h => ?_⟩
  show kindOf (kindField (_ ++ x)) = some k
  rw [(fields_append _ x).2.1, ← h]; rfl
theorem setT (x : Index) : Statement (.setT x) := by
  refine ⟨(fields_append _ x).1, fun k h => ?_⟩
  show kindOf (kindField (_ ++ x)) = some k
  rw [(fields_append _ x).2.1, ← h]; rfl
theorem rstDo (x : Index) : Statement (.rstDo x) := by
  refine ⟨(fields_append _ x).1, fun k h => ?_⟩
  show kindOf (kindField (_ ++ x)) = some k
  rw [(fields_append _ x).2.1, ← h]; rfl
theorem rstAo (x : Index) : Statement (.rstAo x) := by
  refine ⟨(fields_append _ x).1, fun k h => ?_⟩
  show kindOf (kindField (_ ++ x)) = some k
  rw [(fields_append _ x).2.1, ← h]; rfl
theorem rstM (x : Index) : Statement (.rstM x) := by
  refine ⟨(fields_append _ x).1, fun k h => ?_⟩
  show kindOf (kindField (_ ++ x)) = some k
  rw [(fields_append _ x).2.1, ← h]; rfl
theorem rstMr (x : Index) : Statement (.rstMr x) := by
  refine ⟨(fields_append _ x).1, fun k h => ?_⟩
  show kindOf (kindField (_ ++ x)) = some k
  rw [(fields_append _ x).2.1, ← h]; rfl
theorem rstT (x : Index) : Statement (.rstT x) := by
  refine ⟨(fields_append _ x).1, fun k h => ?_⟩
  show kindOf (kindField (_ ++ x)) = some k
  rw [(fields_append _ x).2.1, ← h]; rfl
theorem jmp (x : Index) : Statement (.jmp x) :=
  ⟨(fields_append _ x).1, fun _ h => nomatch h⟩

end Sys2Proof.Laws.EncodeFields
end

