-- ==== Sys2Proof/Laws/Snapshot.lean ====
section
/-! SUPPORT. The bytes of a snapshot (spec/20_memory.md R79): the length and the number of a big-endian field, the
lengths of a slot's fields, and where the block of a slot stands among blocks of one length. -/

namespace Sys2Proof.Machine

open Sys2Proof

@[simp] theorem bigEndian_length (n v : Nat) : (bigEndian n v).length = n := by
  induction n with
  | zero => rfl
  | succ n ih => simp [bigEndian, ih]

/-- The number that the bytes of a big-endian field make, the most significant first. -/
theorem bigEndian_number (n v a : Nat) :
    (bigEndian n v).foldl (fun x b => x * 256 + b.toNat) a = a * 256 ^ n + v % 256 ^ n := by
  induction n generalizing a with
  | zero => simp [bigEndian, Nat.mod_one]
  | succ n ih =>
    simp only [bigEndian, List.foldl_cons, ih, BitVec.toNat_ofNat]
    rw [Nat.mod_pow_succ (x := v), Nat.pow_succ]
    ring

@[simp] theorem bitByte_length (b : Bool) : (bitByte b).length = 1 := rfl
@[simp] theorem u64Bytes_length (v : U64) : (u64Bytes v).length = 8 := bigEndian_length _ _
@[simp] theorem f64Bytes_length (v : F64) : (f64Bytes v).length = 8 := bigEndian_length _ _
@[simp] theorem wordBytes_length (w : Word) : (wordBytes w).length = 4 := bigEndian_length _ _

/-- Blocks of `n` bytes each take `n` times their number. -/
theorem flatten_blocks_length (n : Nat) (l : List (List Byte)) (h : ∀ x ∈ l, x.length = n) :
    l.flatten.length = n * l.length := by
  induction l with
  | nil => simp
  | cons x l ih =>
    simp only [List.flatten_cons, List.length_append, List.length_cons, h x (by simp),
      ih fun y hy => h y (by simp [hy])]
    ring

/-- Among blocks of `n` bytes each, block `i` stands at byte `n * i`. -/
theorem flatten_blocks_block (n : Nat) (l : List (List Byte)) (h : ∀ x ∈ l, x.length = n) (i : Nat)
    (hi : i < l.length) (rest : List Byte) : ((l.flatten ++ rest).drop (n * i)).take n = l[i] := by
  induction l generalizing i with
  | nil => simp at hi
  | cons x l ih =>
    have hx : x.length = n := h x (by simp)
    cases i with
    | zero => simp [← hx]
    | succ i =>
      have hs : n * (i + 1) = x.length + n * i := by rw [hx]; ring
      simp only [List.flatten_cons, List.append_assoc, hs, List.drop_length_add_append, List.getElem_cons_succ]
      exact ih (fun y hy => h y (by simp [hy])) i (by simpa using hi)

end Sys2Proof.Machine
end

