-- ==== Sys2Proof/Tests/Slice0.lean ====
section
/-! SUPPORT. The model's own tests: what WellFormed and reset refuse, one word of every instruction written out from
the list of 30_encoding.md R90, one step of every instruction (values from 95_test_vectors.md, or worked out by hand
from the rule the docstring names), and for every statement with hypotheses a concrete case that meets them. -/

namespace Sys2Proof.Tests

open Sys2Proof Sys2Proof.Machine

/-! ### Helpers -/

/-- The next state of an outcome. -/
def nextOf : Host.Outcome State Fault Refusal → Option State
  | .next s => some s
  | .fault _ => none
  | .refused _ => none

theorem next_of {o : Host.Outcome State Fault Refusal} {p : State → Bool} (h : (nextOf o).any p = true) :
    ∃ t, o = .next t ∧ p t = true := by
  cases o with
  | next s => exact ⟨s, rfl, h⟩
  | fault f => exact absurd h Bool.false_ne_true
  | refused r => exact absurd h Bool.false_ne_true

/-- The bytes of words stored one after another from the word address `a` on. -/
def storeWords : Nat → List Word → Memory → Memory
  | _, [], m => m
  | a, w :: ws, m => storeWords (a + 1) ws (m.writeBE (4 * a) 4 w.toNat)

/-- The program of one rung that holds the words. -/
def oneRung (ws : List Word) : Program := ⟨storeWords 0 ws [], ws.length, [⟨0, ws.length⟩]⟩

/-- A bank of CFG-A whose kinds hold different values. -/
def testBank : Bank where
  di := [⟨true, false, false⟩, ⟨false, true, false⟩, ⟨false, false, true⟩, default, default, default, default, default]
  dout := [default, default, default, ⟨true, false, false⟩, default, default, default, default]
  ai := [F64.zero, ⟨0x4093480000000000#64⟩]
  ao := [⟨0x8000000000000000#64⟩, ⟨0xC000000000000000#64⟩]
  m := [default, ⟨5#64, true, false, false, false⟩, ⟨0xFFFFFFFFFFFFFFFF#64, false, false, false, false⟩,
    ⟨100#64, false, false, false, false⟩]
  mr := [F64.zero, F64.zero, F64.zero, ⟨0x401E000000000000#64⟩]
  t := [⟨0#64, 1#64, false, true⟩, ⟨0#64, 2#64, true, true⟩]
  b := [default]

/-- CFG-A with a program, RUNNING, at the first instruction of rung 0, with this accumulator and `testBank`. -/
def inRung (ws : List Word) (a : Acc) : State :=
  { State.ofConfig Cfg.cfgA (oneRung ws) with
    bank := testBank
    ctl := { Controller.reset with state := .running }
    eng := ⟨a, 0, 0#25, 0⟩
    phase := .rung }

/-- CFG-A with no program, RUNNING, at a phase, with `testBank`. -/
def atPhase (p : Phase) : State :=
  { State.reset with bank := testBank, ctl := { Controller.reset with state := .running }, phase := p }

/-- What a part of the state is after one step at the word with the accumulator. -/
def after {α : Type} (w : Word) (a : Acc) (f : State → α) : Option α := (nextOf (step (inRung [w] a))).map f

/-- ACC after one step. -/
def accAfter (w : Word) (a : Acc) : Option Acc := after w a fun t => t.eng.acc

/-- ACC = BOOL(b). -/
def bit (b : Bool) : Acc := .val (.bool b)

/-- The four rows of the truth table of a combinator: the slot 0, then 1, with ACC 0, then 1. -/
def truthTable (w0 w1 : Word) : List (Option Acc) :=
  [accAfter w0 (bit false), accAfter w1 (bit false), accAfter w0 (bit true), accAfter w1 (bit true)]

/-! ### What WellFormed and reset refuse -/

/-- 60_exceptions.md R251 step 4: an index at the slot count is ill formed, the last index is well formed. -/
theorem test_wellFormed_index :
    (Instr.ldDi 8#24).WellFormed (count Cfg.cfgA) 1 = false ∧ (Instr.ldDi 7#24).WellFormed (count Cfg.cfgA) 1 = true
    ∧ (Instr.stMr 4#24).WellFormed (count Cfg.cfgA) 1 = false
    ∧ (Instr.setT 2#24).WellFormed (count Cfg.cfgA) 1 = false := by decide

/-- 60_exceptions.md R251 step 4J: a target at the length of the rung is ill formed. -/
theorem test_wellFormed_target :
    (Instr.jmp 6#24).WellFormed (count Cfg.cfgA) 6 = false
    ∧ (Instr.jmp 5#24).WellFormed (count Cfg.cfgA) 6 = true := by decide

/-- 70_reset_and_hazards.md R281: an ill-formed configuration or program for each check, and which check refuses it. -/
theorem test_boot_refuses :
    configFlaw { Cfg.cfgA with nDI := 2 ^ 24 + 1 } Program.empty = some .slotCount
    ∧ configFlaw { Cfg.cfgA with maxRungs := 2 ^ 24 + 1 } Program.empty = some .programSize
    ∧ configFlaw { Cfg.cfgA with maxRungs := 0 } (oneRung [0#32]) = some .programSize
    ∧ configFlaw Cfg.cfgA ⟨[], 1, [⟨1, 1⟩]⟩ = some .programSize
    ∧ configFlaw { Cfg.cfgA with b := [0#64] } Program.empty = some .zeroScale
    ∧ configFlaw { Cfg.cfgA with t := [⟨0#64, 3#64, true⟩] } Program.empty = some .zeroScale
    ∧ configFlaw { Cfg.cfgA with t := [⟨1#64, 3#64, false⟩] } Program.empty = some .offDelay
    ∧ configFlaw { Cfg.cfgA with ai := [⟨F64.one, F64.one⟩] } Program.empty = some .analogRange
    ∧ configFlaw { Cfg.cfgA with ao := [⟨⟨0xFFEFFFFFFFFFFFFF#64⟩, ⟨0x7FEFFFFFFFFFFFFF#64⟩⟩] } Program.empty
        = some .analogRange
    ∧ configFlaw { Cfg.cfgA with analogBits := 0 } Program.empty = some .parameter
    ∧ configFlaw { Cfg.cfgA with analogBits := 65 } Program.empty = some .parameter
    ∧ configFlaw { Cfg.cfgA with realEpsilon := ⟨0xBFF0000000000000#64⟩ } Program.empty = some .parameter
    ∧ configFlaw { Cfg.cfgA with rungStepLimit := some 0 } Program.empty = some .parameter := by decide +kernel

/-! ### Decoding, from words written out -/

/-- `ANDN RE,3` bit by bit (30_encoding.md R93): OP 0011, KIND 0001, INDEX 3. -/
theorem test_decode_bits_andn :
    decodeWord (0b0011#4 ++ 0b0001#4 ++ 0b000000000000000000000011#24) = .ok (.andnRe 3#24) := by decide

/-- `ST M,0x123456` bit by bit: OP 0101, KIND 0110. -/
theorem test_decode_bits_st :
    decodeWord (0b0101#4 ++ 0b0110#4 ++ 0b000100100011010001010110#24) = .ok (.stM 0x123456#24) := by decide

/-- `JMP 5` bit by bit: OP 1000, KIND 0000. -/
theorem test_decode_bits_jmp :
    decodeWord (0b1000#4 ++ 0b0000#4 ++ 0b000000000000000000000101#24) = .ok (.jmp 5#24) := by decide

/-- `RST T,0xFFFFFF` bit by bit: OP 0111, KIND 1000, the largest INDEX. -/
theorem test_decode_bits_rst :
    decodeWord (0b0111#4 ++ 0b1000#4 ++ 0b111111111111111111111111#24) = .ok (.rstT 0xFFFFFF#24) := by decide

/-- The LD words of 30_encoding.md R90. -/
theorem test_decode_ld :
    decodeWord 0x00000001#32 = .ok (.ldDi 1#24)
    ∧ decodeWord 0x01000002#32 = .ok (.ldRe 2#24)
    ∧ decodeWord 0x02000003#32 = .ok (.ldFe 3#24)
    ∧ decodeWord 0x03000004#32 = .ok (.ldDo 4#24)
    ∧ decodeWord 0x04000005#32 = .ok (.ldAi 5#24)
    ∧ decodeWord 0x05000006#32 = .ok (.ldAo 6#24)
    ∧ decodeWord 0x06000007#32 = .ok (.ldM 7#24)
    ∧ decodeWord 0x07000008#32 = .ok (.ldMr 8#24)
    ∧ decodeWord 0x08000009#32 = .ok (.ldT 9#24) := by decide

/-- The AND words of 30_encoding.md R90. -/
theorem test_decode_and :
    decodeWord 0x10000001#32 = .ok (.andDi 1#24)
    ∧ decodeWord 0x11000002#32 = .ok (.andRe 2#24)
    ∧ decodeWord 0x12000003#32 = .ok (.andFe 3#24)
    ∧ decodeWord 0x13000004#32 = .ok (.andDo 4#24)
    ∧ decodeWord 0x14000005#32 = .ok (.andAi 5#24)
    ∧ decodeWord 0x15000006#32 = .ok (.andAo 6#24)
    ∧ decodeWord 0x16000007#32 = .ok (.andM 7#24)
    ∧ decodeWord 0x17000008#32 = .ok (.andMr 8#24)
    ∧ decodeWord 0x18000009#32 = .ok (.andT 9#24) := by decide

/-- The OR words of 30_encoding.md R90. -/
theorem test_decode_or :
    decodeWord 0x20000001#32 = .ok (.orDi 1#24)
    ∧ decodeWord 0x21000002#32 = .ok (.orRe 2#24)
    ∧ decodeWord 0x22000003#32 = .ok (.orFe 3#24)
    ∧ decodeWord 0x23000004#32 = .ok (.orDo 4#24)
    ∧ decodeWord 0x24000005#32 = .ok (.orAi 5#24)
    ∧ decodeWord 0x25000006#32 = .ok (.orAo 6#24)
    ∧ decodeWord 0x26000007#32 = .ok (.orM 7#24)
    ∧ decodeWord 0x27000008#32 = .ok (.orMr 8#24)
    ∧ decodeWord 0x28000009#32 = .ok (.orT 9#24) := by decide

/-- The ANDN words of 30_encoding.md R90. -/
theorem test_decode_andn :
    decodeWord 0x30000001#32 = .ok (.andnDi 1#24)
    ∧ decodeWord 0x31000002#32 = .ok (.andnRe 2#24)
    ∧ decodeWord 0x32000003#32 = .ok (.andnFe 3#24)
    ∧ decodeWord 0x33000004#32 = .ok (.andnDo 4#24)
    ∧ decodeWord 0x34000005#32 = .ok (.andnAi 5#24)
    ∧ decodeWord 0x35000006#32 = .ok (.andnAo 6#24)
    ∧ decodeWord 0x36000007#32 = .ok (.andnM 7#24)
    ∧ decodeWord 0x37000008#32 = .ok (.andnMr 8#24)
    ∧ decodeWord 0x38000009#32 = .ok (.andnT 9#24) := by decide

/-- The ORN words of 30_encoding.md R90. -/
theorem test_decode_orn :
    decodeWord 0x40000001#32 = .ok (.ornDi 1#24)
    ∧ decodeWord 0x41000002#32 = .ok (.ornRe 2#24)
    ∧ decodeWord 0x42000003#32 = .ok (.ornFe 3#24)
    ∧ decodeWord 0x43000004#32 = .ok (.ornDo 4#24)
    ∧ decodeWord 0x44000005#32 = .ok (.ornAi 5#24)
    ∧ decodeWord 0x45000006#32 = .ok (.ornAo 6#24)
    ∧ decodeWord 0x46000007#32 = .ok (.ornM 7#24)
    ∧ decodeWord 0x47000008#32 = .ok (.ornMr 8#24)
    ∧ decodeWord 0x48000009#32 = .ok (.ornT 9#24) := by decide

/-- The ST words of 30_encoding.md R90. -/
theorem test_decode_st :
    decodeWord 0x53000001#32 = .ok (.stDo 1#24)
    ∧ decodeWord 0x55000002#32 = .ok (.stAo 2#24)
    ∧ decodeWord 0x56000003#32 = .ok (.stM 3#24)
    ∧ decodeWord 0x57000004#32 = .ok (.stMr 4#24) := by decide

/-- The SET words of 30_encoding.md R90. -/
theorem test_decode_set :
    decodeWord 0x63000001#32 = .ok (.setDo 1#24)
    ∧ decodeWord 0x65000002#32 = .ok (.setAo 2#24)
    ∧ decodeWord 0x66000003#32 = .ok (.setM 3#24)
    ∧ decodeWord 0x67000004#32 = .ok (.setMr 4#24)
    ∧ decodeWord 0x68000005#32 = .ok (.setT 5#24) := by decide

/-- The RST words of 30_encoding.md R90. -/
theorem test_decode_rst :
    decodeWord 0x73000001#32 = .ok (.rstDo 1#24)
    ∧ decodeWord 0x75000002#32 = .ok (.rstAo 2#24)
    ∧ decodeWord 0x76000003#32 = .ok (.rstM 3#24)
    ∧ decodeWord 0x77000004#32 = .ok (.rstMr 4#24)
    ∧ decodeWord 0x78000005#32 = .ok (.rstT 5#24) := by decide

/-- The JMP words of 30_encoding.md R90. -/
theorem test_decode_jmp :
    decodeWord 0x80000001#32 = .ok (.jmp 1#24) := by decide

/-- Words that are no instruction (95_test_vectors.md V-LD11, V-LD12, V-ST22, V-ST28, V-S22, V-S25, V-J8; R86). -/
theorem test_decode_refuses :
    decodeWord 0x09000000#32 = .error .badOperand ∧ decodeWord 0x0FFFFFFF#32 = .error .badOperand
    ∧ decodeWord 0x50000063#32 = .error .badCoil ∧ decodeWord 0x58000000#32 = .error .badCoil
    ∧ decodeWord 0x5C000000#32 = .error .badOperand ∧ decodeWord 0x61000000#32 = .error .badCoil
    ∧ decodeWord 0x69000000#32 = .error .badOperand ∧ decodeWord 0x74000000#32 = .error .badCoil
    ∧ decodeWord 0x81000004#32 = .error .badOperand ∧ decodeWord 0x90000000#32 = .error .badOperator
    ∧ decodeWord 0xFFFFFFFF#32 = .error .badOperator := by decide

/-- The same reading through the table's numbering, and through the step of a fetched word. -/
theorem test_table_word :
    decodeTableWord 32 0x53000001 = some (.stDo 1#24) ∧ decodeTableWord 32 0x90000000 = none
    ∧ (nextOf (step (State.reset.withFetchWord 32 0x06000003))).map (fun t => t.eng.acc)
        = some (.val (.int 100#64)) := by decide

/-! ### One step of every instruction -/

/-- `LD DI` (V-LD1; W1). -/
theorem test_ld_di :
    after 0x00000000#32 .empty (fun t => (t.eng.acc, t.eng.pc)) = some (bit true, 1#25)
    ∧ after 0x00000008#32 (bit true) (fun t => (t.ctl.err, t.eng.acc)) = some (some .badIndex, .empty) := by decide

/-- `LD RE` (41_load.md R125; W1). -/
theorem test_ld_re :
    after 0x01000001#32 .empty (fun t => (t.eng.acc, t.eng.pc)) = some (bit true, 1#25)
    ∧ after 0x01000008#32 (bit true) (fun t => (t.ctl.err, t.eng.acc)) = some (some .badIndex, .empty) := by decide

/-- `LD FE` (V-LD3; W1). -/
theorem test_ld_fe :
    after 0x02000002#32 .empty (fun t => (t.eng.acc, t.eng.pc)) = some (bit true, 1#25)
    ∧ after 0x02000008#32 (bit true) (fun t => (t.ctl.err, t.eng.acc)) = some (some .badIndex, .empty) := by decide

/-- `LD DO` (V-LD4; W1). -/
theorem test_ld_do :
    after 0x03000003#32 .empty (fun t => (t.eng.acc, t.eng.pc)) = some (bit true, 1#25)
    ∧ after 0x03000008#32 (bit true) (fun t => (t.ctl.err, t.eng.acc)) = some (some .badIndex, .empty) := by decide

/-- `LD AI` (V-LD5, 1234.0; W1). -/
theorem test_ld_ai :
    after 0x04000001#32 .empty (fun t => (t.eng.acc, t.eng.pc)) = some (.val (.real ⟨0x4093480000000000#64⟩), 1#25)
    ∧ after 0x04000002#32 (bit true) (fun t => (t.ctl.err, t.eng.acc)) = some (some .badIndex, .empty) := by decide

/-- `LD AO` (V-LD6, -0.0; W1). -/
theorem test_ld_ao :
    after 0x05000000#32 .empty (fun t => (t.eng.acc, t.eng.pc)) = some (.val (.real ⟨0x8000000000000000#64⟩), 1#25)
    ∧ after 0x05000002#32 (bit true) (fun t => (t.ctl.err, t.eng.acc)) = some (some .badIndex, .empty) := by decide

/-- `LD M` (V-LD7; W1). -/
theorem test_ld_m :
    after 0x06000002#32 .empty (fun t => (t.eng.acc, t.eng.pc)) = some (.val (.int 0xFFFFFFFFFFFFFFFF#64), 1#25)
    ∧ after 0x06000004#32 (bit true) (fun t => (t.ctl.err, t.eng.acc)) = some (some .badIndex, .empty) := by decide

/-- `LD MR` (V-LD8, 7.5; W1). -/
theorem test_ld_mr :
    after 0x07000003#32 .empty (fun t => (t.eng.acc, t.eng.pc)) = some (.val (.real ⟨0x401E000000000000#64⟩), 1#25)
    ∧ after 0x07000004#32 (bit true) (fun t => (t.ctl.err, t.eng.acc)) = some (some .badIndex, .empty) := by decide

/-- `LD T` (V-LD9; W1). -/
theorem test_ld_t :
    after 0x08000001#32 .empty (fun t => (t.eng.acc, t.eng.pc)) = some (bit true, 1#25)
    ∧ after 0x08000002#32 (bit true) (fun t => (t.ctl.err, t.eng.acc)) = some (some .badIndex, .empty) := by decide

/-- AND of the nine kinds, DI to T in the order of their numbers: the truth table (95_test_vectors.md section 3.2). -/
theorem test_and :
    let column : List (Option Acc) := [some (bit false), some (bit false), some (bit false), some (bit true)]
    truthTable 0x10000001#32 0x10000000#32 = column
    ∧ truthTable 0x11000000#32 0x11000001#32 = column
    ∧ truthTable 0x12000000#32 0x12000002#32 = column
    ∧ truthTable 0x13000000#32 0x13000003#32 = column
    ∧ truthTable 0x14000000#32 0x14000001#32 = column
    ∧ truthTable 0x15000000#32 0x15000001#32 = column
    ∧ truthTable 0x16000000#32 0x16000002#32 = column
    ∧ truthTable 0x17000000#32 0x17000003#32 = column
    ∧ truthTable 0x18000000#32 0x18000001#32 = column := by decide +kernel

/-- OR of the nine kinds, DI to T in the order of their numbers: the truth table (95_test_vectors.md section 3.2). -/
theorem test_or :
    let column : List (Option Acc) := [some (bit false), some (bit true), some (bit true), some (bit true)]
    truthTable 0x20000001#32 0x20000000#32 = column
    ∧ truthTable 0x21000000#32 0x21000001#32 = column
    ∧ truthTable 0x22000000#32 0x22000002#32 = column
    ∧ truthTable 0x23000000#32 0x23000003#32 = column
    ∧ truthTable 0x24000000#32 0x24000001#32 = column
    ∧ truthTable 0x25000000#32 0x25000001#32 = column
    ∧ truthTable 0x26000000#32 0x26000002#32 = column
    ∧ truthTable 0x27000000#32 0x27000003#32 = column
    ∧ truthTable 0x28000000#32 0x28000001#32 = column := by decide +kernel

/-- ANDN of the nine kinds, DI to T in the order of their numbers: the truth table (95_test_vectors.md section 3.2). -/
theorem test_andn :
    let column : List (Option Acc) := [some (bit false), some (bit false), some (bit true), some (bit false)]
    truthTable 0x30000001#32 0x30000000#32 = column
    ∧ truthTable 0x31000000#32 0x31000001#32 = column
    ∧ truthTable 0x32000000#32 0x32000002#32 = column
    ∧ truthTable 0x33000000#32 0x33000003#32 = column
    ∧ truthTable 0x34000000#32 0x34000001#32 = column
    ∧ truthTable 0x35000000#32 0x35000001#32 = column
    ∧ truthTable 0x36000000#32 0x36000002#32 = column
    ∧ truthTable 0x37000000#32 0x37000003#32 = column
    ∧ truthTable 0x38000000#32 0x38000001#32 = column := by decide +kernel

/-- ORN of the nine kinds, DI to T in the order of their numbers: the truth table (95_test_vectors.md section 3.2). -/
theorem test_orn :
    let column : List (Option Acc) := [some (bit true), some (bit false), some (bit true), some (bit true)]
    truthTable 0x40000001#32 0x40000000#32 = column
    ∧ truthTable 0x41000000#32 0x41000001#32 = column
    ∧ truthTable 0x42000000#32 0x42000002#32 = column
    ∧ truthTable 0x43000000#32 0x43000003#32 = column
    ∧ truthTable 0x44000000#32 0x44000001#32 = column
    ∧ truthTable 0x45000000#32 0x45000001#32 = column
    ∧ truthTable 0x46000000#32 0x46000002#32 = column
    ∧ truthTable 0x47000000#32 0x47000003#32 = column
    ∧ truthTable 0x48000000#32 0x48000001#32 = column := by decide +kernel

/-- `ST DO` (V-ST1, V-ST4 with 1e-10, V-ST26). -/
theorem test_st_do :
    after 0x53000000#32 (bit true) (fun t => (t.bank.doAt 0, t.eng.acc)) = some (⟨true, false, false⟩, bit true)
    ∧ after 0x53000003#32 (.val (.real ⟨0x3DDB7CDFD9D7BDBB#64⟩)) (fun t => (t.bank.doAt 3).q) = some false
    ∧ after 0x53000008#32 .empty (fun t => t.ctl.err) = some (some .badIndex) := by decide +kernel

/-- `ST AO` (V-ST8, -5.5; V-ST9, 2^53 + 1 ties to even). -/
theorem test_st_ao :
    after 0x55000001#32 (.val (.real ⟨0xC016000000000000#64⟩)) (fun t => t.bank.aoAt 1)
      = some ⟨0xC016000000000000#64⟩
    ∧ after 0x55000001#32 (.val (.int 9007199254740993#64)) (fun t => t.bank.aoAt 1)
      = some ⟨0x4340000000000000#64⟩ := by decide +kernel

/-- `ST M` (V-ST11, 3.9; V-ST12, -1.5; V-ST15, 2^64; V-ST20, read-only). -/
theorem test_st_m :
    after 0x56000001#32 (.val (.real ⟨0x400F333333333333#64⟩)) (fun t => t.bank.mAt 1)
      = some ⟨3#64, true, false, false, false⟩
    ∧ after 0x56000001#32 (.val (.real ⟨0xBFF8000000000000#64⟩)) (fun t => (t.bank.mAt 1).v) = some 0#64
    ∧ after 0x56000000#32 (.val (.real ⟨0x43F0000000000000#64⟩)) (fun t => (t.bank.mAt 0).v)
      = some 0xFFFFFFFFFFFFFFFF#64
    ∧ after 0x56000003#32 (bit false) (fun t => (t.ctl.err, (t.bank.mAt 3).v)) = some (some .badOperand, 100#64) := by
  decide +kernel

/-- `ST MR` (V-ST18, 7.0; V-ST21, read-only). -/
theorem test_st_mr :
    after 0x57000000#32 (.val (.int 7#64)) (fun t => t.bank.mrAt 0) = some ⟨0x401C000000000000#64⟩
    ∧ after 0x57000003#32 (.val (.real F64.one)) (fun t => t.ctl.err) = some (some .badOperand) := by decide +kernel

/-- `SET DO` (V-S4 with 250.0, V-S2). -/
theorem test_set_do :
    after 0x63000002#32 (.val (.real ⟨0x406F400000000000#64⟩)) (fun t => t.bank.doAt 2) = some ⟨true, true, false⟩
    ∧ after 0x63000002#32 (bit false) (fun t => (t.bank.doAt 2, t.eng.pc)) = some (⟨false, false, false⟩, 1#25) := by
  decide +kernel

/-- `SET AO` (V-S7). -/
theorem test_set_ao :
    after 0x65000000#32 (.val (.real ⟨0x406F400000000000#64⟩)) (fun t => t.bank.aoAt 0) = some F64.one := by
  decide +kernel

/-- `SET M` (V-S9, V-S16, V-S17). -/
theorem test_set_m :
    after 0x66000000#32 (bit true) (fun t => t.bank.mAt 0) = some ⟨0#64, true, false, true, false⟩
    ∧ after 0x66000003#32 (bit true) (fun t => t.ctl.err) = some (some .badOperand)
    ∧ after 0x66000003#32 (bit false) (fun t => (t.ctl.err, t.eng.pc)) = some (none, 1#25) := by decide

/-- `SET MR` (V-S18). -/
theorem test_set_mr : after 0x67000000#32 (bit true) (fun t => t.bank.mrAt 0) = some F64.one := by decide

/-- `SET T` (V-S20, V-S23). -/
theorem test_set_t :
    after 0x68000000#32 (bit true) (fun t => t.bank.tAt 0) = some ⟨0#64, 1#64, false, true⟩
    ∧ after 0x68000002#32 (bit true) (fun t => t.ctl.err) = some (some .badIndex) := by decide

/-- `RST DO` (V-S5). -/
theorem test_rst_do :
    after 0x73000003#32 (bit true) (fun t => t.bank.doAt 3) = some ⟨false, false, true⟩ := by decide

/-- `RST AO` (V-S8: the pattern is +0.0). -/
theorem test_rst_ao : after 0x75000001#32 (bit true) (fun t => t.bank.aoAt 1) = some ⟨0#64⟩ := by decide

/-- `RST M` (V-S14: V stays). -/
theorem test_rst_m :
    after 0x76000001#32 (bit true) (fun t => t.bank.mAt 1) = some ⟨5#64, false, false, false, true⟩ := by decide

/-- `RST MR` (V-S18, V-S19). -/
theorem test_rst_mr :
    after 0x77000000#32 (bit true) (fun t => t.bank.mrAt 0) = some ⟨0#64⟩
    ∧ after 0x77000003#32 (bit true) (fun t => (t.ctl.err, t.bank.mrAt 3))
      = some (some .badOperand, ⟨0x401E000000000000#64⟩) := by decide

/-- `RST T` (V-S20: V, C and Q stay until the tick). -/
theorem test_rst_t :
    after 0x78000001#32 (bit true) (fun t => t.bank.tAt 1) = some ⟨0#64, 2#64, true, false⟩ := by decide

/-- `JMP` in a rung of six words, at PC 1 (V-J1, V-J2, V-J4). -/
def jumpAt (w : Word) (a : Acc) : State :=
  { inRung [0#32, w, 0#32, 0#32, 0#32, 0#32] a with eng := ⟨a, 0, 1#25, 0⟩ }

theorem test_jmp :
    (nextOf (step (jumpAt 0x80000004#32 (bit true)))).map (fun t => (t.eng.pc, t.eng.acc)) = some (4#25, bit true)
    ∧ (nextOf (step (jumpAt 0x80000004#32 (bit false)))).map (fun t => t.eng.pc) = some 2#25
    ∧ (nextOf (step (jumpAt 0x80000000#32 (bit true)))).map (fun t => t.eng.pc) = some 0#25 := by decide

/-- `JMP` to the length of the rung, taken or not, and with an EMPTY accumulator (V-J6, V-J7). -/
theorem test_jmp_errors :
    (nextOf (step (jumpAt 0x80000006#32 (bit false)))).map (fun t => (t.ctl.err, t.ctl.errPc, t.ctl.errWord))
      = some (some .badProg, 1#32, 0x80000006#32)
    ∧ (nextOf (step (jumpAt 0x80000004#32 .empty))).map (fun t => t.ctl.err) = some (some .badProg) := by decide

/-! ### The phases -/

/-- The default codec (40_io_codec.md R105, R109): 12 bits, 0.0 to 4095.0; 2000.0 is 0x7D0 (W4), -5.5 gives 0, 2.5
rounds to 2. -/
theorem test_codec :
    linearDecode 12 0x7D0#64 (rangeAt Cfg.cfgA.ai 0) = ⟨0x409F400000000000#64⟩
    ∧ linearEncode 12 ⟨0x409F400000000000#64⟩ (rangeAt Cfg.cfgA.ao 0) = 0x7D0#64
    ∧ linearEncode 12 ⟨0xC016000000000000#64⟩ (rangeAt Cfg.cfgA.ao 0) = 0#64
    ∧ linearEncode 12 ⟨0x4004000000000000#64⟩ (rangeAt Cfg.cfgA.ao 0) = 2#64 := by decide +kernel

/-- The tick (V-S9: an up count on the rising pulse of M1; 46_sequencer.md R190 for T0 at V = 1 of P = 3). -/
theorem test_tick :
    (nextOf (step (atPhase .tick))).map (fun t => (t.bank.mAt 1, t.bank.tAt 0, t.bank.bAt 0))
      = some (⟨6#64, true, true, false, false⟩, ⟨0#64, 2#64, false, true⟩, ⟨1#64, false⟩) := by decide

/-- The encode phase: bit 3 of byte 0 of RAW_DO, and AO1 = -2.0 as 0 (40_io_codec.md R108, R109). -/
theorem test_encode :
    (nextOf (step (atPhase .encode))).map (fun t => (t.rawDO, t.rawAO)) = some ([(0, 8#8)], []) := by decide +kernel

/-- W3: an input that is 1 in the first scan gives RE = 1. -/
theorem test_decode_phase :
    (nextOf (step { atPhase .decode with rawDI := [(0, 2#8)] })).map (fun t => t.bank.diAt 1)
      = some ⟨true, true, false⟩ := by decide +kernel

/-- 20_memory.md R79 on CFG-A, counted by hand: 24 + 24 + 48 + 48 + 56 + 36 + 70 + 17 bytes of the bank, 16 + 16 + 18 + 18
of the forcing registers, 20 of the control registers; M[1] (V = 5, PULSE = 1) stands at 144 + 14, the force bits of DI[2]
at 323 + 4, STATUS (RUNNING) at 391. -/
theorem test_snapshot_bytes :
    let b := (snapshot (applyOp (.forceDI 2 true) (atPhase .host)).1).bytes
    b.length = 411
    ∧ (b.drop 158).take 14
      = [0#8, 0#8, 0#8, 0#8, 0#8, 0#8, 0#8, 5#8, 1#8, 0#8, 0#8, 0#8, 0#8, 0#8]
    ∧ (b.drop 325).take 6 = [0#8, 0#8, 1#8, 1#8, 0#8, 0#8]
    ∧ (b.drop 391).take 4 = [0#8, 0#8, 0#8, 1#8] := by decide +kernel

/-! ### For every statement with hypotheses, a case that meets them -/

/-- A rung of two words, `LD DI,0` and the word, with a step limit. -/
def limited (w : Word) (n : Nat) : State :=
  let s := inRung [w, 0#32] (bit true)
  { s with cfg := { s.cfg with rungStepLimit := some n } }

theorem witness_EncodeOfDecodeReturnsTheWord :
    decodeWord 0x56123456#32 = .ok (.stM 0x123456#24) := by decide

theorem witness_EncodedBytesDecodeAndLeaveTheRest :
    ([1#8, 2#8, 3#8] : List Byte).length < 4 := by decide

theorem witness_StaticVerdictOfEveryWord :
    (9 ≤ (0x90000000#32).toNat / 2 ^ 28)
    ∧ ((0x80FFFFFF#32).toNat / 2 ^ 28 = 8 ∧ (0x80FFFFFF#32).toNat / 2 ^ 24 % 16 = 0)
    ∧ ((0x8F000000#32).toNat / 2 ^ 28 = 8 ∧ (0x8F000000#32).toNat / 2 ^ 24 % 16 ≠ 0)
    ∧ ((0x79000000#32).toNat / 2 ^ 28 ≤ 7 ∧ 9 ≤ (0x79000000#32).toNat / 2 ^ 24 % 16)
    ∧ ((0x58000000#32).toNat / 2 ^ 28 = 5 ∧ (0x58000000#32).toNat / 2 ^ 24 % 16 = 8)
    ∧ ((0x68000000#32).toNat / 2 ^ 28 = 6 ∧ (0x68000000#32).toNat / 2 ^ 24 % 16 = 8)
    ∧ decodeWord 0x50000063#32 = .error .badCoil ∧ limitReached (inRung [0x50000063#32] .empty) = false := by decide

theorem witness_BigEndianWritesAndReads :
    Memory.wf [(3, 7#8), (4, 1#8)] = true ∧ (3 < 4 ∧ (2 < 3 ∨ 3 + 4 ≤ 2)) ∧ (7 < 3 ∨ 3 + 4 ≤ 7)
    ∧ Memory.readBE [(3, 7#8), (4, 1#8)] 3 2 = 0x0701 := by decide

theorem witness_StepRunsTheDecodedInstruction :
    (inRung [0x00000000#32] .empty).phase = .rung ∧ (inRung [0x00000000#32] .empty).prog.rungs[(inRung [0x00000000#32] .empty).eng.ri]? = some ⟨0, 1⟩ ∧ (inRung [0x00000000#32] .empty).eng.pc.toNat < 1 ∧ 0 + (inRung [0x00000000#32] .empty).eng.pc.toNat < (inRung [0x00000000#32] .empty).prog.words
    ∧ (inRung [0x00000000#32] .empty).cfg.rungStepLimit ≠ some (inRung [0x00000000#32] .empty).eng.steps ∧ decodeWord (BitVec.ofNat 32 ((inRung [0x00000000#32] .empty).prog.imem.readBE (4 * (0 + (inRung [0x00000000#32] .empty).eng.pc.toNat)) 4)) = .ok (.ldDi 0#24) := by decide

theorem witness_StepRaisesTheVerdictOrTheStepLimit :
    ((inRung [0x5C000000#32] .empty).phase = .rung ∧ (inRung [0x5C000000#32] .empty).prog.rungs[(inRung [0x5C000000#32] .empty).eng.ri]? = some ⟨0, 1⟩ ∧ (inRung [0x5C000000#32] .empty).eng.pc.toNat < 1 ∧ 0 + (inRung [0x5C000000#32] .empty).eng.pc.toNat < (inRung [0x5C000000#32] .empty).prog.words
    ∧ (inRung [0x5C000000#32] .empty).cfg.rungStepLimit ≠ some (inRung [0x5C000000#32] .empty).eng.steps ∧ decodeWord (BitVec.ofNat 32 ((inRung [0x5C000000#32] .empty).prog.imem.readBE (4 * (0 + (inRung [0x5C000000#32] .empty).eng.pc.toNat)) 4)) = .error .badOperand)
    ∧ (limited 0x80000000#32 0).phase = .rung ∧ (limited 0x80000000#32 0).prog.rungs[(limited 0x80000000#32 0).eng.ri]? = some ⟨0, 2⟩ ∧ (limited 0x80000000#32 0).eng.pc.toNat < 2 ∧ 0 + (limited 0x80000000#32 0).eng.pc.toNat < (limited 0x80000000#32 0).prog.words
    ∧ (limited 0x80000000#32 0).cfg.rungStepLimit = some (limited 0x80000000#32 0).eng.steps := by decide

theorem witness_RungsStartAndCompleteInOrder :
    ((inRung [0#32] .empty).enter .execute).eng.ri < ((inRung [0#32] .empty).enter .execute).prog.rungs.length
    ∧ ((inRung [0#32] .empty).enter .execute).ctl.state = .running
    ∧ (atPhase .execute).prog.rungs.length ≤ (atPhase .execute).eng.ri
    ∧ (State.reset.enter .execute).ctl.state ≠ .running
    ∧ ((inRung [0#32] .empty).setPc 1#25).prog.rungs[((inRung [0#32] .empty).setPc 1#25).eng.ri]? = some ⟨0, 1⟩
    ∧ ((inRung [0#32] .empty).setPc 1#25).eng.pc.toNat = 1 ∧ ((inRung [0#32] .empty).setPc 1#25).phase = .rung := by decide

theorem witness_ShutdownWinsAtTheBoundary :
    State.reset.phase = .boundary ∧ State.reset.ctl.state ≠ .terminated ∧ State.reset.pending = []
    ∧ ({ State.reset with ctl := { Controller.reset with state := .terminated } } : State).phase = .boundary
    ∧ ({ State.reset.requestShutdown with pending := [⟨[], [], []⟩] } : State).ctl.shutdownReq = true
    ∧ ({ State.reset with pending := [⟨[], [], []⟩] } : State).ctl.shutdownReq = false
    ∧ ({ State.reset with pending := [⟨[], [], []⟩] } : State).phase = .boundary := by decide

theorem witness_OnlyShutdownLeadsToTerminated :
    ∃ t, step { State.reset.requestShutdown with pending := [⟨[], [], []⟩] } = .next t
      ∧ decide (t.ctl.state = .terminated ∧ State.reset.requestShutdown.ctl.state ≠ .terminated) = true := next_of (by decide)

theorem witness_ParametersNeverChange :
    ∃ t, step (inRung [0x53000000#32] (bit true)) = .next t ∧ decide (t.bank.doAt 0 = ⟨true, false, false⟩) = true := next_of (by decide)

theorem witness_SelfJumpNeverEnds :
    (inRung [0x80000000#32] (bit true)).phase = .rung ∧ (inRung [0x80000000#32] (bit true)).prog.rungs[(inRung [0x80000000#32] (bit true)).eng.ri]? = some ⟨0, 1⟩ ∧ (inRung [0x80000000#32] (bit true)).eng.pc.toNat < 1 ∧ 0 + (inRung [0x80000000#32] (bit true)).eng.pc.toNat < (inRung [0x80000000#32] (bit true)).prog.words
    ∧ (inRung [0x80000000#32] (bit true)).cfg.rungStepLimit = none ∧ (inRung [0x80000000#32] (bit true)).eng.acc = .val (.bool true)
    ∧ truth (inRung [0x80000000#32] (bit true)).cfg.realEpsilon (.bool true) = true
    ∧ decodeWord (BitVec.ofNat 32 ((inRung [0x80000000#32] (bit true)).prog.imem.readBE (4 * (0 + (inRung [0x80000000#32] (bit true)).eng.pc.toNat)) 4))
      = .ok (.jmp (BitVec.ofNat 24 (inRung [0x80000000#32] (bit true)).eng.pc.toNat)) ∧ (inRung [0x80000000#32] (bit true)).eng.pc.toNat < 2 ^ 24 := by decide

theorem witness_LoadsPutTheSlotIntoTheAccumulator :
    (7#24).toNat < Cfg.cfgA.nDI ∧ Cfg.cfgA.nDI ≤ (8#24).toNat ∧ (7#24).toNat < Cfg.cfgA.nDO
    ∧ Cfg.cfgA.nDO ≤ (8#24).toNat ∧ (1#24).toNat < Cfg.cfgA.ai.length ∧ Cfg.cfgA.ai.length ≤ (2#24).toNat
    ∧ (1#24).toNat < Cfg.cfgA.ao.length ∧ Cfg.cfgA.ao.length ≤ (2#24).toNat ∧ (3#24).toNat < Cfg.cfgA.m.length
    ∧ Cfg.cfgA.m.length ≤ (4#24).toNat ∧ (3#24).toNat < Cfg.cfgA.mr.length ∧ Cfg.cfgA.mr.length ≤ (4#24).toNat
    ∧ (1#24).toNat < Cfg.cfgA.t.length ∧ Cfg.cfgA.t.length ≤ (2#24).toNat
    ∧ (0x09000000#32).toNat / 2 ^ 28 = 0 ∧ 9 ≤ (0x09000000#32).toNat / 2 ^ 24 % 16 := by decide

theorem witness_AndCombinesTheAccumulatorWithTheSlot :
    (1#24).toNat < count (inRung [] (bit true)).cfg .t ∧ (inRung [] (bit true)).eng.acc = .val (.bool true)
    ∧ count Cfg.cfgA .t ≤ (2#24).toNat ∧ (inRung [] .empty).eng.acc = .empty
    ∧ (0x19000000#32).toNat / 2 ^ 28 = 1 ∧ 9 ≤ (0x19000000#32).toNat / 2 ^ 24 % 16 := by decide

theorem witness_OrCombinesTheAccumulatorWithTheSlot :
    (1#24).toNat < count (inRung [] (bit true)).cfg .t ∧ (inRung [] (bit true)).eng.acc = .val (.bool true)
    ∧ count Cfg.cfgA .t ≤ (2#24).toNat ∧ (inRung [] .empty).eng.acc = .empty
    ∧ (0x29000000#32).toNat / 2 ^ 28 = 2 ∧ 9 ≤ (0x29000000#32).toNat / 2 ^ 24 % 16 := by decide

theorem witness_AndnCombinesTheAccumulatorWithTheSlot :
    (1#24).toNat < count (inRung [] (bit true)).cfg .t ∧ (inRung [] (bit true)).eng.acc = .val (.bool true)
    ∧ count Cfg.cfgA .t ≤ (2#24).toNat ∧ (inRung [] .empty).eng.acc = .empty
    ∧ (0x39000000#32).toNat / 2 ^ 28 = 3 ∧ 9 ≤ (0x39000000#32).toNat / 2 ^ 24 % 16 := by decide

theorem witness_OrnCombinesTheAccumulatorWithTheSlot :
    (1#24).toNat < count (inRung [] (bit true)).cfg .t ∧ (inRung [] (bit true)).eng.acc = .val (.bool true)
    ∧ count Cfg.cfgA .t ≤ (2#24).toNat ∧ (inRung [] .empty).eng.acc = .empty
    ∧ (0x49000000#32).toNat / 2 ^ 28 = 4 ∧ 9 ≤ (0x49000000#32).toNat / 2 ^ 24 % 16 := by decide

theorem witness_ChainEvaluatesLeftToRight :
    (7#24).toNat < count Cfg.cfgA .di ∧ (3#24).toNat < count Cfg.cfgA .m ∧ (1#24).toNat < count Cfg.cfgA .ai := by decide

theorem witness_StoresToOutputsWriteTheSlot :
    (inRung [] (bit true)).eng.acc = .val (.bool true) ∧ (inRung [] .empty).eng.acc = .empty
    ∧ (7#24).toNat < Cfg.cfgA.nDO ∧ Cfg.cfgA.nDO ≤ (8#24).toNat
    ∧ (1#24).toNat < Cfg.cfgA.ao.length ∧ Cfg.cfgA.ao.length ≤ (2#24).toNat := by decide

theorem witness_StoresToMemoryWriteTheSlot :
    (inRung [] (bit true)).eng.acc = .val (.bool true) ∧ (inRung [] .empty).eng.acc = .empty
    ∧ (3#24).toNat < Cfg.cfgA.m.length ∧ Cfg.cfgA.m.length ≤ (4#24).toNat ∧ (3#24).toNat < Cfg.cfgA.mr.length
    ∧ Cfg.cfgA.mr.length ≤ (4#24).toNat ∧ memRo Cfg.cfgA 2 = false ∧ memRo Cfg.cfgA 3 = true ∧ realMemRo Cfg.cfgA 2 = false ∧ realMemRo Cfg.cfgA 3 = true := by decide

theorem witness_SetWritesItsConstantWhenTheGateIsTrue :
    (inRung [] (bit true)).eng.acc = .val (.bool true) ∧ (inRung [] .empty).eng.acc = .empty
    ∧ truth Cfg.cfgA.realEpsilon (.bool true) = true ∧ truth Cfg.cfgA.realEpsilon (.int 0#64) = false
    ∧ (7#24).toNat < Cfg.cfgA.nDO ∧ Cfg.cfgA.nDO ≤ (8#24).toNat
    ∧ (1#24).toNat < Cfg.cfgA.ao.length ∧ Cfg.cfgA.ao.length ≤ (2#24).toNat
    ∧ (3#24).toNat < Cfg.cfgA.m.length ∧ Cfg.cfgA.m.length ≤ (4#24).toNat
    ∧ (3#24).toNat < Cfg.cfgA.mr.length ∧ Cfg.cfgA.mr.length ≤ (4#24).toNat
    ∧ (1#24).toNat < Cfg.cfgA.t.length ∧ Cfg.cfgA.t.length ≤ (2#24).toNat
    ∧ memRo Cfg.cfgA 2 = false ∧ memRo Cfg.cfgA 3 = true ∧ realMemRo Cfg.cfgA 2 = false ∧ realMemRo Cfg.cfgA 3 = true := by decide

theorem witness_ResetWritesItsConstantWhenTheGateIsTrue :
    (inRung [] (bit true)).eng.acc = .val (.bool true) ∧ (inRung [] .empty).eng.acc = .empty
    ∧ truth Cfg.cfgA.realEpsilon (.bool true) = true ∧ truth Cfg.cfgA.realEpsilon (.int 0#64) = false
    ∧ (7#24).toNat < Cfg.cfgA.nDO ∧ Cfg.cfgA.nDO ≤ (8#24).toNat
    ∧ (1#24).toNat < Cfg.cfgA.ao.length ∧ Cfg.cfgA.ao.length ≤ (2#24).toNat
    ∧ (3#24).toNat < Cfg.cfgA.m.length ∧ Cfg.cfgA.m.length ≤ (4#24).toNat
    ∧ (3#24).toNat < Cfg.cfgA.mr.length ∧ Cfg.cfgA.mr.length ≤ (4#24).toNat
    ∧ (1#24).toNat < Cfg.cfgA.t.length ∧ Cfg.cfgA.t.length ≤ (2#24).toNat
    ∧ memRo Cfg.cfgA 2 = false ∧ memRo Cfg.cfgA 3 = true ∧ realMemRo Cfg.cfgA 2 = false ∧ realMemRo Cfg.cfgA 3 = true := by decide

theorem witness_JumpMovesThePcWhenTheAccumulatorIsTrue :
    (5#24).toNat < (jumpAt 0#32 (bit true)).rungLen ∧ (jumpAt 0#32 (bit true)).rungLen ≤ (6#24).toNat
    ∧ (jumpAt 0#32 (bit true)).eng.acc = .val (.bool true) ∧ (jumpAt 0#32 .empty).eng.acc = .empty
    ∧ truth Cfg.cfgA.realEpsilon (.bool true) = true ∧ truth Cfg.cfgA.realEpsilon (.bool false) = false
    ∧ (0x81000006#32).toNat / 2 ^ 28 = 8 ∧ (0x81000006#32).toNat / 2 ^ 24 % 16 ≠ 0 := by decide

theorem witness_TruthOfATaggedValue :
    Cfg.cfgA.realEpsilon.isNaN = false ∧ (⟨0x7FF8000000000000#64⟩ : F64).isNaN = true ∧ (F64.inf true).isNaN = false
    ∧ Cfg.cfgA.realEpsilon.units < (F64.one.mag : Int) := by decide +kernel

theorem witness_ToU64SaturatesAndTruncates :
    (⟨0x7FF8000000000000#64⟩ : F64).isNaN = true ∧ F64.zero.units ≤ 0
    ∧ (2 : Int) ^ 64 * 2 ^ 1074 ≤ (⟨0x43F0000000000000#64⟩ : F64).units
    ∧ (0 < (⟨0x43EFFFFFFFFFFFFF#64⟩ : F64).units
      ∧ (⟨0x43EFFFFFFFFFFFFF#64⟩ : F64).units < (2 : Int) ^ 64 * 2 ^ 1074)
    ∧ (⟨0x43EFFFFFFFFFFFFF#64⟩ : F64).isNaN = false := by decide +kernel

theorem witness_ToRealIsExactBelowTwoToThe53 :
    (0x1FFFFFFFFFFFFF#64).toNat < 2 ^ 53 := by decide

/-- 2^53 + 1 lies half way between two values. -/
theorem witness_ToRealIsTheNearestValueTiesToEven :
    F64.one.isFinite = true ∧ (⟨0x4340000000000001#64⟩ : F64).isFinite = true
    ∧ ((toReal (.int 9007199254740993#64)).units - (9007199254740993 : Int) * 2 ^ 1074).natAbs
      = ((⟨0x4340000000000001#64⟩ : F64).units - (9007199254740993 : Int) * 2 ^ 1074).natAbs
    ∧ (⟨0x4340000000000001#64⟩ : F64) ≠ toReal (.int 9007199254740993#64) := by decide +kernel

theorem witness_StoreThenLoadReturnsTheValue :
    SizedBank (inRung [] (bit true)).cfg (inRung [] (bit true)).bank
    ∧ (inRung [] (bit true)).eng.acc = .val (.bool true) ∧ (1#24).toNat < Cfg.cfgA.nDO
    ∧ (1#24).toNat < Cfg.cfgA.ao.length ∧ (1#24).toNat < Cfg.cfgA.m.length ∧ memRo Cfg.cfgA 1 = false
    ∧ (1#24).toNat < Cfg.cfgA.mr.length ∧ realMemRo Cfg.cfgA 1 = false := by decide

theorem witness_ChecksAreMadeInTheSpecsOrder :
    limitReached (inRung [] .empty) = false
    ∧ firstFailure 0x90000063#32 (inRung [] .empty) = some .badOperator
    ∧ firstFailure 0x5C000063#32 (inRung [] .empty) = some .badOperand
    ∧ firstFailure 0x81000006#32 (inRung [] .empty) = some .badOperand
    ∧ firstFailure 0x50000063#32 (inRung [] .empty) = some .badCoil
    ∧ firstFailure 0x10000063#32 (inRung [] .empty) = some .badIndex
    ∧ firstFailure 0x80000006#32 (inRung [] .empty) = some .badProg
    ∧ firstFailure 0x56000003#32 (inRung [] .empty) = some .badProg
    ∧ firstFailure 0x56000003#32 (inRung [] (bit false)) = some .badOperand
    ∧ firstFailure 0x66000003#32 (inRung [] (bit true)) = some .badOperand
    ∧ firstFailure 0x66000003#32 (inRung [] (bit false)) = none := by decide

theorem witness_ErrorsArePreciseAndLatched :
    (inRung [0x50000063#32] .empty).phase = .rung
    ∧ ∃ t, step (inRung [0x50000063#32] .empty) = .next t ∧ decide (t.phase = .tick) = true := ⟨by decide, next_of (by decide)⟩

theorem witness_InstructionsKeepToTheirRights :
    ∃ t, exec (.setT 0#24) (inRung [] (bit true)) = .next t ∧ decide (t.eng.pc = 1#25) = true := next_of (by decide)

theorem witness_OnlyTheNamedSlotCanChange :
    (∃ t, exec (.stM 1#24) (inRung [] (bit true)) = .next t ∧ decide ((t.bank.mAt 1).v = 1#64) = true)
    ∧ ¬ ((Instr.stM 1#24).slotKind = some .m ∧ 2 = (Instr.stM 1#24).index.toNat)
    ∧ (opField (encode (.orT 1#24))).toNat < 5 ∧ (opField (encode (.jmp 1#24))).toNat = 8 := ⟨next_of (by decide), by decide⟩

theorem witness_DecodePhaseSamplesTheInputs :
    Sized (atPhase .decode) ∧ (atPhase .decode).phase = .decode ∧ 7 < (atPhase .decode).cfg.nDI
    ∧ 1 < (atPhase .decode).cfg.ai.length := by decide

theorem witness_ForcingPersists :
    (∃ t, step (atPhase .tick) = .next t ∧ decide ((atPhase .tick).phase ≠ .host) = true)
    ∧ (∃ t, step { atPhase .host with hostOps := [.start, .readCsr 4, .isInputForced 2] } = .next t
      ∧ decide (t.answers.length = 3) = true) := ⟨next_of (by decide), next_of (by decide)⟩

/-- A padding bit exists with nine outputs: bit 15. -/
theorem witness_EncodePhaseDrivesTheOutputs :
    Memory.wf (atPhase .encode).rawDO = true ∧ Memory.wf (atPhase .encode).rawAO = true
    ∧ (atPhase .encode).phase = .encode ∧ 7 < (atPhase .encode).cfg.nDO ∧ 1 < (atPhase .encode).cfg.ao.length
    ∧ (9 ≤ 15 ∧ 15 / 8 < (9 + 7) / 8) ∧ (8 + 7) / 8 ≤ 1 := by decide

/-- Every category differs from PREV. -/
theorem witness_DeltaPhaseComparesAndReplacesThePreviousScan :
    (atPhase .delta).phase = .delta
    ∧ (nextOf (step (atPhase .delta))).map (fun t => t.ctl.delta) = some 0b11111#5
    ∧ (atPhase .host).phase ≠ .delta ∧ (nextOf (step (atPhase .host))).isSome = true := by decide

theorem witness_DefaultEncodeGivesAValidSample :
    1 ≤ 64 ∧ 64 ≤ 64 ∧ (⟨0x7FF8000000000000#64⟩ : F64).isNaN = true ∧ F64.lt (rangeAt Cfg.cfgA.ai 0).min (rangeAt Cfg.cfgA.ai 0).max = true
    ∧ F64.le (rangeAt Cfg.cfgA.ai 0).min (rangeAt Cfg.cfgA.ai 0).min = true ∧ F64.le (F64.inf true) (rangeAt Cfg.cfgA.ai 0).min = true := by decide +kernel

theorem witness_DefaultDecodeOfZeroIsTheMinimum :
    1 ≤ 12 ∧ 12 ≤ 64 ∧ (rangeAt Cfg.cfgA.ai 0).min.isFinite = true ∧ (rangeAt Cfg.cfgA.ai 0).max.isFinite = true
    ∧ (F64.sub (rangeAt Cfg.cfgA.ai 0).max (rangeAt Cfg.cfgA.ai 0).min).isFinite = true
    ∧ (rangeAt Cfg.cfgA.ai 0).min.bits ≠ 0x8000000000000000#64 := by decide +kernel

/-- The hypotheses hold at 47 bits and raw 65, where the property fails (log entry 7). -/
theorem witness_DefaultDecodeIsExactOnAFullScaleRange :
    1 ≤ 47 ∧ 47 ≤ 64 ∧ (65#64).toNat < 2 ^ 47 ∧ (65#64).toNat < 2 ^ 53
    ∧ F64.sub (F64.ofNat (2 ^ 47 - 1)) F64.zero = F64.ofNat (2 ^ 47 - 1)
    ∧ linearDecode 47 65#64 ⟨F64.zero, F64.ofNat (2 ^ 47 - 1)⟩ ≠ F64.ofNat 65 := by decide +kernel

theorem witness_DefaultCodecRoundTripsUpTo26Bits :
    1 ≤ 26 ∧ 26 ≤ 26 ∧ (0x3FFFFFF#64).toNat < 2 ^ 26 := by decide

/-- Also where the decode alone is not exact (47 bits, raw 65). -/
theorem witness_DefaultEncodeInvertsDecodeUpTo53Bits :
    1 ≤ 53 ∧ 53 ≤ 53 ∧ (0x1FFFFFFFFFFFFF#64).toNat < 2 ^ 53 ∧ F64.zero.isZero = true ∧ (⟨0x8000000000000000#64⟩ : F64).isZero = true
    ∧ linearEncode 47 (linearDecode 47 65#64 ⟨F64.zero, F64.ofNat (2 ^ 47 - 1)⟩) ⟨F64.zero, F64.ofNat (2 ^ 47 - 1)⟩ = 65#64
    ∧ linearEncode 53 (linearDecode 53 0x1FFFFFFFFFFFFE#64 ⟨(⟨0x8000000000000000#64⟩ : F64), F64.ofNat (2 ^ 53 - 1)⟩) ⟨(⟨0x8000000000000000#64⟩ : F64), F64.ofNat (2 ^ 53 - 1)⟩
      = 0x1FFFFFFFFFFFFE#64 := by decide +kernel

theorem witness_StoppedControllerDoesNotTick :
    (State.reset.enter .tick).phase = .tick ∧ (State.reset.enter .tick).ctl.state ≠ .running
    ∧ (atPhase .tick).phase = .tick ∧ (atPhase .tick).ctl.state = .running ∧ SizedBank (atPhase .tick).cfg (atPhase .tick).bank
    ∧ (∀ k ∈ (atPhase .tick).cfg.t, k.onDelay = true) ∧ 1 < (atPhase .tick).cfg.t.length
    ∧ (atPhase .tick).bank.tAt 0 = ⟨0#64, 1#64, false, true⟩ ∧ (1#64 : U64) < (timerCfgAt Cfg.cfgA 0).preset
    ∧ (timerCfgAt Cfg.cfgA 1).preset ≤ ((atPhase .tick).bank.tAt 1).v
    ∧ (State.reset.bank.tAt 0).start = false ∧ 0 < (atPhase .tick).cfg.b.length := by decide

/-- Also V-S11: counting down from 0. -/
theorem witness_CountersCountRisingPulsesAndWrap :
    (atPhase .tick).phase = .tick ∧ (atPhase .tick).ctl.state = .running
    ∧ SizedBank (atPhase .tick).cfg (atPhase .tick).bank ∧ (∀ k ∈ (atPhase .tick).cfg.t, k.onDelay = true)
    ∧ ((atPhase .tick).bank.mAt 1).pulse = true ∧ ((atPhase .tick).prev.bank.mAt 1).pulse = false
    ∧ ((atPhase .tick).bank.mAt 0).pulse = false ∧ memDown Cfg.cfgA 1 = false ∧ memDown Cfg.cfgA 2 = true
    ∧ (tickCounter true false ⟨0#64, true, false, false, false⟩).v = 0xFFFFFFFFFFFFFFFF#64 := by decide

theorem witness_OnDelayTimerClosedForm :
    1 ≤ (1#64).toNat ∧ (1 : Nat) ≤ 1 ∧ 1 ≤ (0xFFFFFFFFFFFFFFFF#64).toNat := by decide

theorem witness_BlinkerClosedForm :
    1 ≤ (1#64).toNat ∧ 1 ≤ (0xFFFFFFFFFFFFFFFF#64).toNat := by decide

theorem witness_StartAndStopMoveTheController :
    State.reset.ctl.state = .stopped ∧ (atPhase .host).ctl.state = .running ∧ (atPhase .host).ctl.state ≠ .stopped
    ∧ State.reset.ctl.state ≠ .running := by decide

theorem witness_ForceOperationsWriteOneChannel :
    7 < State.reset.cfg.nDI ∧ State.reset.cfg.nDI ≤ 8 ∧ 7 < State.reset.cfg.nDO ∧ State.reset.cfg.nDO ≤ 8
    ∧ 1 < State.reset.cfg.ai.length ∧ State.reset.cfg.ai.length ≤ 2 ∧ 1 < State.reset.cfg.ao.length
    ∧ State.reset.cfg.ao.length ≤ 2 ∧ SizedForcing State.reset.cfg State.reset.force
    ∧ bitForceAt State.reset.force.di 7 = ⟨false, false⟩ ∧ bitForceAt State.reset.force.dout 7 = ⟨false, false⟩
    ∧ realForceAt State.reset.force.ai 1 = ⟨false, F64.zero⟩ ∧ realForceAt State.reset.force.ao 1 = ⟨false, F64.zero⟩ := by decide

theorem witness_ControlRegistersReadAsLaidOut :
    5 ≤ 5 ∧ HostOp.forceDI 0 true ≠ .start ∧ HostOp.forceDI 0 true ≠ .stop ∧ HostOp.forceDI 0 true ≠ .shutdown
    ∧ (applyOp (.readCsr 0) (atPhase .host)).2 = .csr 1#32 := by decide

theorem witness_RefusedHostOperationChangesNothing :
    (applyOp (.forceDI 8 true) State.reset).2 = .badIndex ∧ (applyOp (.readCsr 5) State.reset).2 = .badIndex := by decide

theorem witness_HostPhaseAppliesTheOperationsInOrder :
    (atPhase .host).phase = .host ∧ (atPhase .host).ctl.state = .running
    ∧ (∃ t, step { atPhase .host with hostOps := [.stop, .start] } = .next t ∧ decide (t.ctl.state = .running) = true) := ⟨by decide, by decide, next_of (by decide)⟩

theorem witness_HostCannotWriteTheBank :
    1 < State.reset.cfg.m.length ∧ 3 < State.reset.cfg.mr.length := by decide

theorem witness_SnapshotBytesAreLaidOutSlotBySlot :
    Sized (atPhase .host) ∧ 7 < Cfg.cfgA.nDI ∧ 7 < Cfg.cfgA.nDO ∧ 1 < Cfg.cfgA.ai.length ∧ 1 < Cfg.cfgA.ao.length
    ∧ 3 < Cfg.cfgA.m.length ∧ 3 < Cfg.cfgA.mr.length ∧ 1 < Cfg.cfgA.t.length ∧ 0 < Cfg.cfgA.b.length := by decide

theorem witness_BootSetsTheResetValues :
    ∃ t, boot Cfg.cfgA (oneRung [0#32]) = .next t ∧ decide (t.prog = oneRung [0#32]) = true := next_of (by decide +kernel)

theorem witness_BootRefusesExactlyTheBadConfigurations :
    configFlaw Cfg.cfgA (oneRung [0xFFFFFFFF#32]) = none
    ∧ configFlaw { Cfg.cfgA with rungStepLimit := some 0 } (oneRung [0#32]) = some .parameter := by decide +kernel

theorem witness_BootEstablishesTheInvariant :
    (oneRung [0x12345678#32]).imem.wf = true
    ∧ ∃ t, boot Cfg.cfgA (oneRung [0x12345678#32]) = .next t ∧ decide (t.prog = oneRung [0x12345678#32]) = true := ⟨by decide, next_of (by decide +kernel)⟩

/-- A state inside a rung that satisfies the invariant: the reset bank, RUNNING, at `LD DI,0`. -/
def invState : State :=
  { State.ofConfig Cfg.cfgA (oneRung [0x00000000#32]) with
    ctl := { Controller.reset with state := .running }
    phase := .rung }

theorem witness_EveryStepKeepsTheInvariant :
    Inv invState ∧ ∃ t, step invState = .next t ∧ decide (t.eng.acc = bit false) = true := by
  refine ⟨⟨?_, ?_, ?_, ?_, ?_, ?_, ?_, ?_, ?_, ?_⟩, next_of (by decide)⟩ <;> decide +kernel

theorem witness_NoStepFailsUntilTheRunEnds :
    Inv { State.reset with ctl := { Controller.reset with state := .terminated } } := by
  refine ⟨?_, ?_, ?_, ?_, ?_, ?_, ?_, ?_, ?_, ?_⟩ <;> decide +kernel

end Sys2Proof.Tests
end

section
/-! PROOFS. What reset accepts and what it sets (spec/70_reset_and_hazards.md R280, R281; spec/10_state.md R46
to R50). -/

namespace Sys2Proof.Machine

open Sys2Proof

/-! ### What reset accepts -/

theorem configFlaw_eq_none {c : Cfg} {p : Program} (h : configFlaw c p = none) :
    slotCountsOk c = true ∧ programSizeOk c p = true ∧ scalesOk c = true ∧ onDelayOk c = true
      ∧ rangesOk c = true ∧ parametersOk c = true := by
  unfold configFlaw at h
  split_ifs at h
  simp_all

theorem timerScale_pos {c : Cfg} {p : Program} (h : configFlaw c p = none) {i : Nat} (hi : i < c.t.length) :
    0#64 < (timerCfgAt c i).scale := by
  obtain ⟨-, -, hs, -⟩ := configFlaw_eq_none h
  simp only [scalesOk, Bool.and_eq_true, List.all_eq_true, bne_iff_ne] at hs
  have hne := hs.1 c.t[i] (List.getElem_mem hi)
  rw [timerCfgAt, List.getD_eq_getElem c.t default hi]
  bv_omega

theorem blinkerScale_pos {c : Cfg} {p : Program} (h : configFlaw c p = none) {i : Nat} (hi : i < c.b.length) :
    0#64 < blinkerScaleAt c i := by
  obtain ⟨-, -, hs, -⟩ := configFlaw_eq_none h
  simp only [scalesOk, Bool.and_eq_true, List.all_eq_true, bne_iff_ne] at hs
  have hne := hs.2 c.b[i] (List.getElem_mem hi)
  rw [blinkerScaleAt, List.getD_eq_getElem c.b 0#64 hi]
  bv_omega

/-- `LEN[RI]` is at most 2^24, so that `PC` never leaves its 25 bits (10_state.md R42). -/
theorem rungLen_le_countLimit {s : State} (h : Accepted s) : s.rungLen ≤ 2 ^ 24 := by
  obtain ⟨-, hp, -⟩ := configFlaw_eq_none h
  simp only [programSizeOk, Bool.and_eq_true, List.all_eq_true] at hp
  unfold State.rungLen
  split
  · rename_i r hr
    have hok := hp.2 r (List.mem_of_getElem? hr)
    simp only [rungOk, Bool.and_eq_true, decide_eq_true_eq] at hok
    exact hok.1
  · omega

/-! ### What reset sets -/

theorem boot_eq_next {c : Cfg} {p : Program} {s : State} (h : boot c p = .next s) : s = State.ofConfig c p := by
  unfold boot at h
  split at h
  · cases h
  · cases h; rfl

theorem Bank.sized_reset (c : Cfg) : SizedBank c (Bank.reset c) := by
  simp [SizedBank, Bank.reset]

theorem Forcing.sized_reset (c : Cfg) : SizedForcing c (Forcing.reset c) := by
  simp [SizedForcing, Forcing.reset]

/-- Copies of the default read as the default at every index. -/
theorem getD_replicate_self {α : Type} (n i : Nat) (d : α) : (List.replicate n d).getD i d = d := by
  rw [List.getD_eq_getElem?_getD, List.getElem?_replicate]
  split <;> rfl

theorem getD_map_const {α β : Type} (l : List α) (i : Nat) (d : β) : (l.map fun _ => d).getD i d = d := by
  rw [List.map_const']
  exact getD_replicate_self l.length i d

@[simp] theorem Bank.reset_diAt (c : Cfg) (i : Nat) : (Bank.reset c).diAt i = ⟨false, false, false⟩ :=
  getD_replicate_self _ i _
@[simp] theorem Bank.reset_doAt (c : Cfg) (i : Nat) : (Bank.reset c).doAt i = ⟨false, false, false⟩ :=
  getD_replicate_self _ i _
@[simp] theorem Bank.reset_aiAt (c : Cfg) (i : Nat) : (Bank.reset c).aiAt i = F64.zero :=
  getD_map_const _ i _
@[simp] theorem Bank.reset_aoAt (c : Cfg) (i : Nat) : (Bank.reset c).aoAt i = F64.zero :=
  getD_map_const _ i _
@[simp] theorem Bank.reset_tAt (c : Cfg) (i : Nat) : (Bank.reset c).tAt i = ⟨0#64, 0#64, false, false⟩ :=
  getD_map_const _ i _
@[simp] theorem Bank.reset_bAt (c : Cfg) (i : Nat) : (Bank.reset c).bAt i = ⟨0#64, false⟩ :=
  getD_map_const _ i _

theorem Bank.reset_mAt {c : Cfg} {i : Nat} {x : MemCfg} (h : c.m[i]? = some x) :
    (Bank.reset c).mAt i = ⟨x.value.getD 0#64, false, false, false, false⟩ := by
  simp [Bank.mAt, Bank.reset, List.getD_eq_getElem?_getD, h]

theorem Bank.reset_mrAt {c : Cfg} {i : Nat} {x : RealMemCfg} (h : c.mr[i]? = some x) :
    (Bank.reset c).mrAt i = x.value.getD F64.zero := by
  simp [Bank.mrAt, Bank.reset, List.getD_eq_getElem?_getD, h]

@[simp] theorem Forcing.reset_diAt (c : Cfg) (i : Nat) : bitForceAt (Forcing.reset c).di i = ⟨false, false⟩ :=
  getD_replicate_self _ i _
@[simp] theorem Forcing.reset_doAt (c : Cfg) (i : Nat) : bitForceAt (Forcing.reset c).dout i = ⟨false, false⟩ :=
  getD_replicate_self _ i _
@[simp] theorem Forcing.reset_aiAt (c : Cfg) (i : Nat) : realForceAt (Forcing.reset c).ai i = ⟨false, F64.zero⟩ :=
  getD_map_const _ i _
@[simp] theorem Forcing.reset_aoAt (c : Cfg) (i : Nat) : realForceAt (Forcing.reset c).ao i = ⟨false, F64.zero⟩ :=
  getD_map_const _ i _

/-- Settles O55: a boot that is not refused gives `State.ofConfig`, whose registers the lemmas above read. -/
theorem bootSetsTheResetValues : Obligations.BootSetsTheResetValues := by
  unfold Obligations.BootSetsTheResetValues
  intro c p s hboot
  obtain rfl := boot_eq_next hboot
  have hbank := Bank.sized_reset c
  refine ⟨rfl, rfl, ⟨hbank, hbank, Forcing.sized_reset c⟩, fun i => ?_, fun i x => Bank.reset_mAt,
    fun i x => Bank.reset_mrAt, fun i => ?_, rfl, rfl, rfl⟩ <;> simp

end Sys2Proof.Machine
end

section
/-! PROOFS. What one instruction, one static verdict and the head of the rung loop can do, each said once. -/

namespace Sys2Proof.Machine

open Sys2Proof

/-! ### What one instruction can do -/

/-- A write of an instruction to the register bank: only a slot that is not read-only, and of a timer only START. -/
inductive CoilWrite (c : Cfg) (b : Bank) : Bank → Prop
  | dout (i : Nat) (f : DoSlot → DoSlot) : CoilWrite c b (b.modDo i f)
  | ao (i : Nat) (v : F64) : CoilWrite c b (b.setAo i v)
  | m (i : Nat) (f : MemSlot → MemSlot) (h : memRo c i = false) : CoilWrite c b (b.modM i f)
  | mr (i : Nat) (v : F64) (h : realMemRo c i = false) : CoilWrite c b (b.setMr i v)
  | t (i : Nat) (start : Bool) : CoilWrite c b (b.modT i fun x => { x with start := start })

/-- The next states that one instruction can lead to. -/
inductive ExecResult (s : State) : State → Prop
  | raise (e : ErrorKind) (w : Word) (he : raisable e = true) : ExecResult s (s.raise e w)
  | setAcc (a : Acc) : ExecResult s (s.setAcc a).advance
  | write (b : Bank) (hb : CoilWrite s.cfg s.bank b) : ExecResult s (s.setBank b).advance
  | advance : ExecResult s s.advance
  | jump (p : Pc) (hp : p.toNat < s.rungLen) : ExecResult s (s.setPc p)

theorem loadOp_result (k : Kind) (i : Index) (w : Word) (s : State) : ExecResult s (loadOp k i w s) := by
  rcases loadOp_cases k i w s with ⟨-, h⟩ | ⟨-, h⟩ <;> rw [h]
  · exact .raise _ _ rfl
  · exact .setAcc _

theorem combineOp_result (f : Bool → Bool → Bool) (k : Kind) (i : Index) (w : Word) (s : State) :
    ExecResult s (combineOp f k i w s) := by
  rcases combineOp_cases f k i w s with ⟨-, h⟩ | ⟨-, -, h⟩ | ⟨-, _, -, h⟩ <;> rw [h]
  · exact .raise _ _ rfl
  · exact .raise _ _ rfl
  · exact .setAcc _

theorem storeOp_result {k : Kind} {i : Index} {wr : Value → Bank → Bank} {w : Word} {s : State}
    (hwr : readOnly s.cfg k i.toNat = false → ∀ v, CoilWrite s.cfg s.bank (wr v s.bank)) :
    ExecResult s (storeOp k i wr w s) := by
  rcases storeOp_cases k i wr w s with ⟨-, h⟩ | ⟨-, -, h⟩ | ⟨-, -, -, h⟩ | ⟨-, hro, v, -, h⟩ <;> rw [h]
  · exact .raise _ _ rfl
  · exact .raise _ _ rfl
  · exact .raise _ _ rfl
  · exact .write _ (hwr hro v)

theorem setOp_result {k : Kind} {i : Index} {wr : Bank → Bank} {w : Word} {s : State}
    (hwr : readOnly s.cfg k i.toNat = false → CoilWrite s.cfg s.bank (wr s.bank)) :
    ExecResult s (setOp k i wr w s) := by
  rcases setOp_cases k i wr w s with ⟨-, h⟩ | ⟨-, -, h⟩ | ⟨-, -, h⟩ | ⟨-, -, -, h⟩ | ⟨-, -, hro, h⟩ <;> rw [h]
  · exact .raise _ _ rfl
  · exact .raise _ _ rfl
  · exact .advance
  · exact .raise _ _ rfl
  · exact .write _ (hwr hro)

theorem jumpOp_result (x : Index) (w : Word) (s : State) : ExecResult s (jumpOp x w s) := by
  rcases jumpOp_cases x w s with ⟨-, h⟩ | ⟨-, -, h⟩ | ⟨hx, -, h⟩ | ⟨-, -, h⟩ <;> rw [h]
  · exact .raise _ _ rfl
  · exact .raise _ _ rfl
  · exact .jump _ (by rwa [BitVec.toNat_setWidth_of_le (by decide)])
  · exact .advance

theorem exec_result (i : Instr) (s : State) : ∃ t, exec i s = .next t ∧ ExecResult s t := by
  cases i with
  | ldDi x | ldRe x | ldFe x | ldDo x | ldAi x | ldAo x | ldM x | ldMr x | ldT x =>
    exact ⟨_, rfl, loadOp_result _ _ _ _⟩
  | andDi x | andRe x | andFe x | andDo x | andAi x | andAo x | andM x | andMr x | andT x
  | orDi x | orRe x | orFe x | orDo x | orAi x | orAo x | orM x | orMr x | orT x
  | andnDi x | andnRe x | andnFe x | andnDo x | andnAi x | andnAo x | andnM x | andnMr x | andnT x
  | ornDi x | ornRe x | ornFe x | ornDo x | ornAi x | ornAo x | ornM x | ornMr x | ornT x =>
    exact ⟨_, rfl, combineOp_result _ _ _ _ _⟩
  | stDo x => exact ⟨_, rfl, storeOp_result fun _ _ => .dout _ _⟩
  | stAo x => exact ⟨_, rfl, storeOp_result fun _ _ => .ao _ _⟩
  | stM x => exact ⟨_, rfl, storeOp_result fun hro _ => .m _ _ hro⟩
  | stMr x => exact ⟨_, rfl, storeOp_result fun hro _ => .mr _ _ hro⟩
  | setDo x | rstDo x => exact ⟨_, rfl, setOp_result fun _ => .dout _ _⟩
  | setAo x | rstAo x => exact ⟨_, rfl, setOp_result fun _ => .ao _ _⟩
  | setM x | rstM x => exact ⟨_, rfl, setOp_result fun hro => .m _ _ hro⟩
  | setMr x | rstMr x => exact ⟨_, rfl, setOp_result fun hro => .mr _ _ hro⟩
  | setT x | rstT x => exact ⟨_, rfl, setOp_result fun _ => .t _ _⟩
  | jmp x => exact ⟨_, rfl, jumpOp_result _ _ _⟩

theorem execResult_of_exec {i : Instr} {s t : State} (h : exec i s = .next t) : ExecResult s t := by
  obtain ⟨u, hu, hr⟩ := exec_result i s
  cases hu.symm.trans h
  exact hr

/-! ### The static verdicts are errors the block can raise -/

theorem withKind_error_raisable {w : Word} {f : Kind → Except ErrorKind Instr} {e : ErrorKind}
    (hf : ∀ k, f k = .error e → raisable e = true) (h : withKind w f = .error e) : raisable e = true := by
  unfold withKind at h
  split at h
  · exact hf _ h
  · cases h; rfl

theorem orBadCoil_error_raisable {o : Option Instr} {e : ErrorKind} (h : orBadCoil o = .error e) :
    raisable e = true := by
  cases o with
  | none => cases h; rfl
  | some i => cases h

theorem decodeWord_error_raisable {w : Word} {e : ErrorKind} (h : decodeWord w = .error e) : raisable e = true := by
  unfold decodeWord at h
  split at h
  case h_1 => cases h; rfl
  case h_2 | h_3 | h_4 | h_5 | h_6 => exact withKind_error_raisable (fun _ hk => by cases hk) h
  case h_7 | h_8 | h_9 => exact withKind_error_raisable (fun _ => orBadCoil_error_raisable) h
  case h_10 =>
    split at h
    · cases h
    · cases h; rfl

/-! ### The head of the loop over the rungs -/

theorem stepLoop_cases (s : State) :
    (s.ctl.state = .running ∧ s.eng.ri < s.prog.rungs.length ∧ stepLoop s = s.startRung s.eng.ri)
    ∨ stepLoop s = s.enter .tick := by
  unfold stepLoop
  split
  · rename_i h; exact .inl ⟨h.1, h.2, rfl⟩
  · exact .inr rfl

end Sys2Proof.Machine
end

section
/-! PROOFS. No step writes the configuration or the program store (spec/10_state.md R33, spec/20_memory.md R61). -/

namespace Sys2Proof.Machine

open Sys2Proof

/-! ### What no step changes -/

theorem ExecResult.sameParameters {s t : State} (h : ExecResult s t) : SameParameters s t := by
  cases h <;> exact ⟨rfl, rfl⟩

theorem runWord_sameParameters {w : Word} {s t : State} (h : runWord w s = .next t) : SameParameters s t := by
  rcases runWord_cases h with ⟨-, rfl⟩ | ⟨-, e, -, rfl⟩ | ⟨-, i, -, hexec⟩
  · exact ⟨rfl, rfl⟩
  · simp [SameParameters]
  · simpa [SameParameters] using (execResult_of_exec hexec).sameParameters

theorem applyOp_sameParameters (op : HostOp) (s : State) : SameParameters s (applyOp op s).1 := by
  rcases applyOp_cases op s with h | h | h | h | ⟨f, h⟩ <;> simp [SameParameters, h]

theorem hostPhase_sameParameters (s : State) : SameParameters s (hostPhase s) :=
  applyOps_keeps (P := SameParameters s)
    (fun op u hu => ⟨(applyOp_sameParameters op u).1.trans hu.1, (applyOp_sameParameters op u).2.trans hu.2⟩)
    s.hostOps s ⟨rfl, rfl⟩

theorem beginScan_sameParameters (s : State) : SameParameters s (beginScan s) := by
  rcases beginScan_cases s with ⟨-, h⟩ | ⟨x, rest, -, ⟨-, h⟩ | ⟨-, h⟩⟩ <;> simp [SameParameters, h]

theorem tickPhase_sameParameters {s t : State} (h : tickPhase s = .next t) : SameParameters s t := by
  rcases tickPhase_cases s with ⟨-, ht⟩ | ⟨-, -, ht⟩ | ⟨-, -, ht⟩ <;> cases ht.symm.trans h <;> exact ⟨rfl, rfl⟩

theorem step_sameParameters {s t : State} (h : step s = .next t) : SameParameters s t := by
  rcases step_cases h with ⟨-, -, rfl⟩ | ⟨-, rfl⟩ | ⟨-, rfl⟩ | ⟨-, -, rfl⟩ | ⟨-, w, -, hrun⟩ | ⟨-, u, hu, rfl⟩
    | ⟨-, rfl⟩ | ⟨-, rfl⟩ | ⟨-, rfl⟩
  · exact beginScan_sameParameters s
  · exact ⟨rfl, rfl⟩
  · rcases stepLoop_cases s with ⟨-, -, hl⟩ | hl <;> rw [hl] <;> exact ⟨rfl, rfl⟩
  · exact ⟨rfl, rfl⟩
  · exact runWord_sameParameters hrun
  · have hparams : SameParameters s u := tickPhase_sameParameters hu
    exact hparams
  · exact ⟨rfl, rfl⟩
  · exact ⟨rfl, rfl⟩
  · exact hostPhase_sameParameters s

/-- Settles O13: no phase and no instruction writes the configuration or the program store. -/
theorem parametersNeverChange : Obligations.ParametersNeverChange := by
  unfold Obligations.ParametersNeverChange
  intro s t h
  obtain ⟨hcfg, hprog⟩ := step_sameParameters h
  exact ⟨hcfg, hprog, fun a => by rw [hprog]⟩

end Sys2Proof.Machine
end

section
/-! PROOFS. The control registers as the host reads them, and who may write them (spec/10_state.md R39). -/

namespace Sys2Proof.Machine

open Sys2Proof

/-! ### The control registers -/

theorem toNat_append_eq {m n : Nat} (x : BitVec m) (y : BitVec n) :
    (x ++ y).toNat = 2 ^ n * x.toNat + y.toNat := by
  rw [BitVec.toNat_append, ← Nat.shiftLeft_add_eq_or_of_lt y.isLt, Nat.shiftLeft_eq, Nat.mul_comm]

theorem stateField_toNat_lt (r : RunState) : (stateField r).toNat < 3 := by
  cases r <;> decide

/-- The fields of STATUS stand at bits 1:0, 2 and 11:8 (10_state.md R39). -/
theorem statusWord_toNat (k : Controller) :
    (statusWord k).toNat =
      (stateField k.state).toNat + 4 * k.shutdownReq.toNat + 256 * (errField k.err).toNat := by
  simp only [statusWord, toNat_append_eq, BitVec.toNat_ofNat, BitVec.toNat_ofBool]
  omega

theorem statusWord_toNat_mod_four_ne_three (k : Controller) : (statusWord k).toNat % 4 ≠ 3 := by
  have hstate := stateField_toNat_lt k.state
  rw [statusWord_toNat]
  omega

theorem deltaWord_toNat (k : Controller) : (deltaWord k).toNat = k.delta.toNat :=
  BitVec.toNat_setWidth_of_le (by decide)

theorem applyOp_readCsr_some {n : Nat} {v : Word} {s : State} (h : readCsr s.ctl n = some v) :
    applyOp (.readCsr n) s = (s, .csr v) := by
  simp only [applyOp, h]

theorem applyOp_readCsr_none {n : Nat} {s : State} (h : readCsr s.ctl n = none) :
    applyOp (.readCsr n) s = (s, .badIndex) := by
  simp only [applyOp, h]

theorem readCsr_eq_none (k : Controller) {n : Nat} (h : 5 ≤ n) : readCsr k n = none := by
  obtain ⟨j, rfl⟩ := Nat.exists_eq_add_of_le' h
  rfl

@[simp] theorem forceOp_ctl (n i : Nat) (f : Forcing) (s : State) : (forceOp n i f s).1.ctl = s.ctl := by
  rcases forceOp_cases n i f s with ⟨-, h⟩ | ⟨-, h⟩ <;> simp [h]

@[simp] theorem queryOp_fst (n i : Nat) (b : Bool) (s : State) : (queryOp n i b s).1 = s := by
  rcases queryOp_cases n i b s with ⟨-, h⟩ | ⟨-, h⟩ <;> simp [h]

@[simp] theorem applyOp_readCsr_fst (n : Nat) (s : State) : (applyOp (.readCsr n) s).1 = s := by
  cases h : readCsr s.ctl n with
  | some v => rw [applyOp_readCsr_some h]
  | none => rw [applyOp_readCsr_none h]

/-- Of the host operations only START, STOP and SHUTDOWN write a controller register. -/
theorem applyOp_ctl {op : HostOp} (s : State) (hstart : op ≠ .start) (hstop : op ≠ .stop)
    (hshut : op ≠ .shutdown) : (applyOp op s).1.ctl = s.ctl := by
  cases op with
  | start => exact absurd rfl hstart
  | stop => exact absurd rfl hstop
  | shutdown => exact absurd rfl hshut
  | forceDI | unforceDI | forceDO | unforceDO | forceAI | unforceAI | forceAO | unforceAO => exact forceOp_ctl _ _ _ _
  | isInputForced | isOutputForced | isAIForced | isAOForced => simp only [applyOp, queryOp_fst]
  | readSnapshot => rfl
  | readCsr n => rw [applyOp_readCsr_fst]

/-- What the host reads as ERR_RUNG, ERR_PC, ERR_WORD and DELTA is as before. -/
def SameLatches (k l : Controller) : Prop :=
  l.errRung = k.errRung ∧ l.errPc = k.errPc ∧ l.errWord = k.errWord ∧ l.delta = k.delta

theorem State.start_sameLatches (s : State) : SameLatches s.ctl s.start.ctl := by
  unfold State.start
  split <;> exact ⟨rfl, rfl, rfl, rfl⟩

theorem State.stop_sameLatches (s : State) : SameLatches s.ctl s.stop.ctl := by
  unfold State.stop
  split <;> exact ⟨rfl, rfl, rfl, rfl⟩

theorem applyOp_sameLatches (op : HostOp) (s : State) : SameLatches s.ctl (applyOp op s).1.ctl := by
  rcases applyOp_cases op s with h | h | h | h | ⟨f, h⟩ <;> rw [h]
  · exact ⟨rfl, rfl, rfl, rfl⟩
  · exact s.start_sameLatches
  · exact s.stop_sameLatches
  · exact ⟨rfl, rfl, rfl, rfl⟩
  · exact ⟨rfl, rfl, rfl, rfl⟩

/-- Settles O50: the fields of STATUS by `statusWord_toNat`, and what a host operation can write by
`applyOp_sameLatches` and `applyOp_ctl`. -/
theorem controlRegistersReadAsLaidOut : Obligations.ControlRegistersReadAsLaidOut := by
  unfold Obligations.ControlRegistersReadAsLaidOut
  intro s
  refine ⟨⟨statusWord s.ctl, rfl, ?_, statusWord_toNat_mod_four_ne_three _⟩, rfl, rfl, rfl,
    ⟨deltaWord s.ctl, rfl, deltaWord_toNat _⟩, fun n hn => applyOp_readCsr_none (readCsr_eq_none _ hn), fun op => ?_⟩
  · rw [statusWord_toNat]
    congr 2
    · cases s.ctl.state <;> rfl
    · cases s.ctl.shutdownReq <;> rfl
    · cases s.ctl.err with
      | none => rfl
      | some e => cases e <;> rfl
  · obtain ⟨hrung, hpc, hword, hdelta⟩ := applyOp_sameLatches op s
    exact ⟨hrung, hpc, hword, hdelta, applyOp_ctl s⟩

end Sys2Proof.Machine
end

section
/-! PROOFS. What a write adds to a raw buffer, and the clauses of the invariant that speak of the register bank. -/

namespace Sys2Proof.Machine

open Sys2Proof

/-! ### What a write adds to a byte memory -/

theorem Memory.mem_write {m : Memory} {a : Nat} {v : Byte} {x : Host.Cell} (h : x ∈ m.write a v) :
    x.1 = a ∨ x ∈ m := by
  have cell : x ∈ Memory.cell a v → x.1 = a := by
    unfold Memory.cell
    split <;> simp +contextual
  induction m with
  | nil => exact .inl (cell h)
  | cons p m ih =>
    obtain ⟨b, y⟩ := p
    unfold Memory.write at h
    split_ifs at h
    · exact (List.mem_append.1 h).imp_left cell
    · exact (List.mem_append.1 h).imp cell (List.mem_cons_of_mem _)
    · rcases List.mem_cons.1 h with rfl | hx
      · exact .inr List.mem_cons_self
      · exact (ih hx).imp_right (List.mem_cons_of_mem _)

theorem Memory.mem_writeBE {m : Memory} {a n v : Nat} {x : Host.Cell} (h : x ∈ m.writeBE a n v) :
    x.1 < a + n ∨ x ∈ m := by
  induction n generalizing m a with
  | zero => exact .inr h
  | succ n ih =>
    rcases ih h with hx | hx
    · left; omega
    · exact (Memory.mem_write hx).imp_left fun ha => by omega

theorem mem_writeBytes {f : Nat → Byte} {n : Nat} {m : Memory} {x : Host.Cell} (h : x ∈ writeBytes f n m) :
    x.1 < n ∨ x ∈ m := by
  induction n with
  | zero => exact .inr h
  | succ n ih =>
    rcases Memory.mem_write h with hx | hx
    · left; omega
    · exact (ih hx).imp_left fun hn => by omega

theorem mem_writeWords {f : Nat → U64} {n : Nat} {m : Memory} {x : Host.Cell} (h : x ∈ writeWords f n m) :
    x.1 < 8 * n ∨ x ∈ m := by
  induction n with
  | zero => exact .inr h
  | succ n ih =>
    rcases Memory.mem_writeBE h with hx | hx
    · left; omega
    · exact (ih hx).imp_left fun hn => by omega

theorem wf_writeBytes (f : Nat → Byte) (n : Nat) {m : Memory} (hm : m.wf = true) :
    Memory.wf (writeBytes f n m) = true := by
  induction n with
  | zero => exact hm
  | succ n ih => exact Memory.wf_write n _ ih

theorem wf_writeWords (f : Nat → U64) (n : Nat) {m : Memory} (hm : m.wf = true) :
    Memory.wf (writeWords f n m) = true := by
  induction n with
  | zero => exact hm
  | succ n ih => exact Memory.wf_writeBE _ 8 _ ih

/-! ### The register bank -/

/-- What the invariant says of the register bank. -/
structure BankOk (c : Cfg) (b : Bank) : Prop where
  sized : SizedBank c b
  edges : EdgesOk b
  timers : TimersOk c b
  blinkers : BlinkersOk c b
  readOnly : ReadOnlyOk c b

/-- The admitted writes keep every clause: those of M and MR name no read-only slot, that of T leaves `C`, `V`, `Q`. -/
theorem CoilWrite.bankOk {c : Cfg} {b b' : Bank} (hw : CoilWrite c b b') (h : BankOk c b) : BankOk c b' := by
  obtain ⟨hsized, hedges, htimers, hblinkers, hm, hmr⟩ := h
  cases hw with
  | dout i f => exact ⟨by simpa [SizedBank] using hsized, hedges, htimers, hblinkers, hm, hmr⟩
  | ao i v => exact ⟨by simpa [SizedBank] using hsized, hedges, htimers, hblinkers, hm, hmr⟩
  | m i f hrw =>
    refine ⟨by simpa [SizedBank] using hsized, hedges, htimers, hblinkers, fun j hj hro => ?_, hmr⟩
    have hij : i ≠ j := by rintro rfl; simp [hrw] at hro
    rw [Bank.mAt_modM, if_neg fun hc => hij hc.1]
    exact hm j hj hro
  | mr i v hrw =>
    refine ⟨by simpa [SizedBank] using hsized, hedges, htimers, hblinkers, hm, fun j hj hro => ?_⟩
    have hij : i ≠ j := by rintro rfl; simp [hrw] at hro
    rw [Bank.mrAt_setMr, if_neg fun hc => hij hc.1]
    exact hmr j hj hro
  | t i start =>
    refine ⟨by simpa [SizedBank] using hsized, hedges, fun j hj => ?_, hblinkers, hm, hmr⟩
    rw [Bank.tAt_modT]
    split <;> exact htimers j hj

/-- At reset no counter shows a pulse or a flag. -/
theorem Bank.reset_mAt_flags {c : Cfg} {i : Nat} (hi : i < c.m.length) :
    ∃ v, (Bank.reset c).mAt i = ⟨v, false, false, false, false⟩ :=
  ⟨_, Bank.reset_mAt (List.getElem?_eq_getElem hi)⟩

theorem decodedDi_edges (s : State) (i : Nat) :
    ((decodedDi s i).re = true → (decodedDi s i).i = true)
      ∧ ((decodedDi s i).fe = true → (decodedDi s i).i = false) := by
  simp only [decodedDi, risingEdge, fallingEdge]
  cases decodedBit s i <;> simp

theorem decodePhase_bankOk {s : State} (h : BankOk s.cfg s.bank) : BankOk s.cfg (decodePhase s).bank := by
  obtain ⟨hsized, -, htimers, hblinkers, hm, hmr⟩ := h
  refine ⟨?_, ?_, htimers, hblinkers, fun i hi hro => ?_, hmr⟩
  · simpa [SizedBank, decodePhase, Bank.clearPulses] using hsized
  · intro d hd
    obtain ⟨i, hi, rfl⟩ := List.mem_mapIdx.1 hd
    exact decodedDi_edges s i
  · obtain ⟨v, hreset⟩ := Bank.reset_mAt_flags hi
    have hslot : (decodePhase s).bank.mAt i = s.bank.clearPulses.mAt i := rfl
    rw [hslot, Bank.mAt_clearPulses, hm i hi hro, hreset]

/-! ### The tick of one slot -/

/-- What the invariant says of one timer: `TimersOk` at one index. -/
def TimerOk (k : TimerCfg) (t : TimerSlot) : Prop :=
  t.v ≤ k.preset ∧ t.c < k.scale ∧ (t.q = true → t.v = k.preset)

/-- A timer that has not reached its preset counts without overflow, so `V` ends at most one further. -/
theorem timerCount_ok {k : TimerCfg} {t : TimerSlot} (hscale : 0#64 < k.scale) (ht : TimerOk k t)
    (hv : ¬ k.preset ≤ t.v) :
    (timerCount k t).v ≤ k.preset ∧ (timerCount k t).c < k.scale ∧ (timerCount k t).q = false := by
  obtain ⟨-, hc, hq⟩ := ht
  have hq : t.q = false := by
    by_contra hne
    exact hv (by rw [hq (by simpa using hne)]; exact BitVec.le_refl _)
  unfold timerCount
  split <;> (refine ⟨?_, ?_, hq⟩ <;> simp only <;> bv_omega)

theorem tickTimer_ok {k : TimerCfg} {t : TimerSlot} (hscale : 0#64 < k.scale) (ht : TimerOk k t) :
    TimerOk k (tickTimer k t) := by
  unfold tickTimer
  split_ifs with hstart hv
  · exact ⟨by simp only; bv_omega, hscale, by simp⟩
  · exact ⟨ht.1, ht.2.1, fun _ => BitVec.le_antisymm ht.1 hv⟩
  · obtain ⟨hle, hlt, hq⟩ := timerCount_ok hscale ht hv
    dsimp only
    split_ifs with hreached
    · exact ⟨hle, hlt, fun _ => BitVec.le_antisymm hle hreached⟩
    · exact ⟨hle, hlt, by simp [hq]⟩

theorem tickBlinker_ok {scale : U64} {b : BlinkerSlot} (hscale : 0#64 < scale) : (tickBlinker scale b).c < scale := by
  unfold tickBlinker
  split
  · exact hscale
  · simp only; bv_omega

/-- A counter without a pulse does not count; so a read-only one keeps its reset value (46_sequencer.md R202). -/
theorem tickCounter_of_no_pulse (down prevPulse : Bool) (v : U64) :
    tickCounter down prevPulse ⟨v, false, false, false, false⟩ = ⟨v, false, false, false, false⟩ := rfl

theorem Bank.tick_bankOk {c : Cfg} {p : Program} (hacc : configFlaw c p = none) (prev : Bank) {b : Bank}
    (h : BankOk c b) : BankOk c (Bank.tick c prev b) := by
  obtain ⟨hsized, hedges, htimers, hblinkers, hm, hmr⟩ := h
  have hlen := hsized
  obtain ⟨-, -, -, -, hlenM, -, hlenT, hlenB⟩ := hlen
  refine ⟨by simpa [SizedBank, Bank.tick] using hsized, hedges, fun i hi => ?_, fun i hi => ?_, fun i hi hro => ?_, hmr⟩
  · rw [Bank.tick_tAt c prev b i (by omega)]
    exact tickTimer_ok (timerScale_pos hacc hi) (htimers i hi)
  · rw [Bank.tick_bAt c prev b i (by omega)]
    exact tickBlinker_ok (blinkerScale_pos hacc hi)
  · obtain ⟨v, hreset⟩ := Bank.reset_mAt_flags hi
    rw [Bank.tick_mAt c prev b i (by omega), hm i hi hro, hreset, tickCounter_of_no_pulse]

end Sys2Proof.Machine
end

section
/-! PROOFS. The invariant is kept by every step: first by each update of the state, then by each phase of the
scan (spec/47_rung_and_scan.md R220). -/

namespace Sys2Proof.Machine

open Sys2Proof

/-! ### What a host operation leaves as it was -/

theorem forceOp_forceSized {n i : Nat} {f : Forcing} {s : State} (hs : SizedForcing s.cfg s.force)
    (hf : SizedForcing s.cfg f) : SizedForcing s.cfg (forceOp n i f s).1.force := by
  rcases forceOp_cases n i f s with ⟨-, h⟩ | ⟨-, h⟩ <;> rw [h]
  · exact hf
  · exact hs

/-- A force operation replaces the registers of one channel and adds none (10_state.md R30, R31). -/
theorem applyOp_forceSized (op : HostOp) {s : State} (h : SizedForcing s.cfg s.force) :
    SizedForcing s.cfg (applyOp op s).1.force := by
  cases op with
  | forceDI | unforceDI | forceDO | unforceDO | forceAI | unforceAI | forceAO | unforceAO =>
    exact forceOp_forceSized h (by simpa [SizedForcing] using h)
  | isInputForced | isOutputForced | isAIForced | isAOForced => simpa only [applyOp, queryOp_fst] using h
  | start => simpa [applyOp] using h
  | stop => simpa [applyOp] using h
  | shutdown => exact h
  | readSnapshot => exact h
  | readCsr n => rwa [applyOp_readCsr_fst]

theorem applyOp_phase (op : HostOp) (s : State) : (applyOp op s).1.phase = s.phase := by
  rcases applyOp_cases op s with h | h | h | h | ⟨f, h⟩ <;> simp [h]

/-! ### The invariant in named parts, and what keeps it -/

/-- The invariant with the clauses that speak of the same registers together. -/
structure InvParts (s : State) : Prop where
  accepted : Accepted s
  bank : BankOk s.cfg s.bank
  prevSized : SizedBank s.cfg s.prev.bank
  forceSized : SizedForcing s.cfg s.force
  canonical : Canonical s
  inRange : BuffersInRange s
  engine : EngineOk s
  controller : ControllerOk s

theorem inv_iff_invParts (s : State) : Inv s ↔ InvParts s := by
  constructor
  · rintro ⟨hacc, ⟨hsized, hprev, hforce⟩, hcanon, hrange, heng, hctl, hedges, htimers, hblinkers, hro⟩
    exact ⟨hacc, ⟨hsized, hedges, htimers, hblinkers, hro⟩, hprev, hforce, hcanon, hrange, heng, hctl⟩
  · rintro ⟨hacc, ⟨hsized, hedges, htimers, hblinkers, hro⟩, hprev, hforce, hcanon, hrange, heng, hctl⟩
    exact ⟨hacc, ⟨hsized, hprev, hforce⟩, hcanon, hrange, heng, hctl, hedges, htimers, hblinkers, hro⟩

namespace InvParts

variable {s : State}

theorem not_terminated (h : InvParts s) (hp : s.phase ≠ .boundary) : s.ctl.state ≠ .terminated :=
  fun ht => hp (h.controller.1 ht)

/-! #### Updates of the state -/

theorem after_setAcc (h : InvParts s) (a : Acc) : InvParts (s.setAcc a) :=
  ⟨h.accepted, h.bank, h.prevSized, h.forceSized, h.canonical, h.inRange, h.engine, h.controller⟩

theorem after_setBank (h : InvParts s) {b : Bank} (hb : BankOk s.cfg b) : InvParts (s.setBank b) :=
  ⟨h.accepted, hb, h.prevSized, h.forceSized, h.canonical, h.inRange, h.engine, h.controller⟩

theorem after_setForce (h : InvParts s) {f : Forcing} (hf : SizedForcing s.cfg f) : InvParts (s.setForce f) :=
  ⟨h.accepted, h.bank, h.prevSized, hf, h.canonical, h.inRange, h.engine, h.controller⟩

theorem after_setPc (h : InvParts s) {p : Pc} (hp : p.toNat ≤ s.rungLen) : InvParts (s.setPc p) := by
  refine ⟨h.accepted, h.bank, h.prevSized, h.forceSized, h.canonical, h.inRange, fun hphase => ?_, h.controller⟩
  obtain ⟨hrun, hri, -, hsteps⟩ := h.engine hphase
  exact ⟨hrun, hri, hp, hsteps⟩

/-- Below `LEN[RI]`, which is at most 2^24, the 25-bit `PC` moves on without wrapping. -/
theorem after_advance (h : InvParts s) (hpc : s.eng.pc.toNat < s.rungLen) : InvParts s.advance := by
  have hlen := rungLen_le_countLimit h.accepted
  refine h.after_setPc ?_
  rw [BitVec.toNat_add_of_lt] <;> simp <;> omega

/-- The abort leaves the rung and stops the controller, so nothing is claimed of the engine registers. -/
theorem after_raise (h : InvParts s) {e : ErrorKind} (he : raisable e = true) (w : Word) : InvParts (s.raise e w) := by
  refine ⟨h.accepted, h.bank, h.prevSized, h.forceSized, h.canonical, h.inRange, ?_, ?_, ?_, ?_⟩
  · exact fun hphase => Phase.noConfusion hphase
  · exact fun hstate => RunState.noConfusion hstate
  · exact fun hstate => RunState.noConfusion hstate
  · simpa using he

/-- The scan goes on at a phase outside a rung; only inside a rung does the invariant speak of the engine registers. -/
theorem enterPhase (h : InvParts s) (hp : s.phase ≠ .boundary) (e : Engine) {q : Phase} (hq : q ≠ .rung) :
    InvParts { s with eng := e, phase := q } :=
  ⟨h.accepted, h.bank, h.prevSized, h.forceSized, h.canonical, h.inRange, fun hphase => absurd hphase hq,
    fun ht => absurd ht (h.not_terminated hp), h.controller.2⟩

theorem after_startRung (h : InvParts s) (hrun : s.ctl.state = .running) (hri : s.eng.ri < s.prog.rungs.length) :
    InvParts (s.startRung s.eng.ri) := by
  refine ⟨h.accepted, h.bank, h.prevSized, h.forceSized, h.canonical, h.inRange,
    fun _ => ⟨hrun, hri, Nat.zero_le _, ?_⟩, fun ht => ?_, h.controller.2⟩
  · cases hlim : s.cfg.rungStepLimit <;> simp [hlim]
  · cases hrun.symm.trans ht

/-! #### Inside a rung -/

theorem after_countStep (h : InvParts s) (hlim : limitReached s = false) : InvParts (countStep s) := by
  unfold countStep
  split
  · exact h
  · rename_i n hn
    refine ⟨h.accepted, h.bank, h.prevSized, h.forceSized, h.canonical, h.inRange, fun hphase => ?_, h.controller⟩
    obtain ⟨hrun, hri, hpc, hsteps⟩ := h.engine hphase
    refine ⟨hrun, hri, hpc, ?_⟩
    simp only [limitReached, hn, Option.all_some, decide_eq_true_eq, decide_eq_false_iff_not, Option.some_inj] at *
    omega

theorem after_execResult {t : State} (h : InvParts s) (hpc : s.eng.pc.toNat < s.rungLen) (hr : ExecResult s t) :
    InvParts t := by
  cases hr with
  | raise e w he => exact h.after_raise he w
  | setAcc a => exact (h.after_setAcc a).after_advance hpc
  | write b hb => exact (h.after_setBank (hb.bankOk h.bank)).after_advance hpc
  | advance => exact h.after_advance hpc
  | jump p hp => exact h.after_setPc hp.le

theorem after_runWord {w : Word} {t : State} (h : InvParts s) (hpc : s.eng.pc.toNat < s.rungLen)
    (hrun : runWord w s = .next t) : InvParts t := by
  rcases runWord_cases hrun with ⟨-, rfl⟩ | ⟨hlim, e, he, rfl⟩ | ⟨hlim, i, -, hexec⟩
  · exact h.after_raise rfl w
  · exact (h.after_countStep hlim).after_raise (decodeWord_error_raisable he) w
  · refine (h.after_countStep hlim).after_execResult ?_ (execResult_of_exec hexec)
    simpa [State.rungLen] using hpc

theorem pc_lt_rungLen (h : InvParts s) (hphase : s.phase = .rung) {w : Word} (hw : fetch s = .word w) :
    s.eng.pc.toNat < s.rungLen := by
  obtain ⟨-, -, hpc, -⟩ := h.engine hphase
  rcases fetch_cases s with ⟨-, hf⟩ | ⟨r, hr, ⟨-, hf⟩ | ⟨hne, -, -⟩ | ⟨-, -, hf⟩⟩
  · cases hf.symm.trans hw
  · cases hf.symm.trans hw
  · simp only [State.rungLen, hr] at hpc ⊢
    omega
  · cases hf.symm.trans hw

/-! #### The phases of the scan -/

theorem after_beginScan (h : InvParts s) (hphase : s.phase = .boundary) (hstate : s.ctl.state ≠ .terminated) :
    InvParts (beginScan s) := by
  obtain ⟨hacc, hbank, hprev, hforce, hcanon, hrange, heng, hterm, herr, hraise⟩ := h
  rcases beginScan_cases s with ⟨-, hb⟩ | ⟨x, rest, -, ⟨-, hb⟩ | ⟨-, hb⟩⟩ <;> rw [hb]
  · exact ⟨hacc, hbank, hprev, hforce, hcanon, hrange, heng, hterm, herr, hraise⟩
  · exact ⟨hacc, hbank, hprev, hforce, hcanon, hrange, by simp [hphase], fun _ => hphase, by simp, hraise⟩
  · exact ⟨hacc, hbank, hprev, hforce, hcanon, hrange, by simp, fun ht => absurd ht hstate, herr, hraise⟩

theorem after_decodePhase (h : InvParts s) : InvParts (decodePhase s) :=
  h.after_setBank (decodePhase_bankOk h.bank)

theorem after_stepLoop (h : InvParts s) (hphase : s.phase = .execute) : InvParts (stepLoop s) := by
  rcases stepLoop_cases s with ⟨hrun, hri, hl⟩ | hl <;> rw [hl]
  · exact h.after_startRung hrun hri
  · exact h.enterPhase (by simp [hphase]) s.eng (by simp)

theorem after_tickPhase {t : State} (h : InvParts s) (ht : tickPhase s = .next t) : InvParts t ∧ t.phase = s.phase := by
  rcases tickPhase_cases s with ⟨-, hc⟩ | ⟨-, -, hc⟩ | ⟨-, -, hc⟩ <;> cases hc.symm.trans ht
  · exact ⟨h, rfl⟩
  · exact ⟨h.after_setBank (Bank.tick_bankOk h.accepted _ h.bank), rfl⟩

theorem after_encodePhase (h : InvParts s) : InvParts (encodePhase s) := by
  obtain ⟨himem, hwfDO, hwfAO⟩ := h.canonical
  obtain ⟨hDO, hAO⟩ := h.inRange
  simp only [List.all_eq_true, decide_eq_true_eq] at hDO hAO
  refine ⟨h.accepted, h.bank, h.prevSized, h.forceSized, ⟨himem, wf_writeBytes _ _ hwfDO, wf_writeWords _ _ hwfAO⟩,
    ⟨?_, ?_⟩, h.engine, h.controller⟩
  · simp only [List.all_eq_true, decide_eq_true_eq]
    exact fun x hx => (mem_writeBytes hx).elim id (hDO x)
  · simp only [List.all_eq_true, decide_eq_true_eq]
    exact fun x hx => (mem_writeWords hx).elim id (hAO x)

theorem after_deltaPhase (h : InvParts s) : InvParts (deltaPhase s) :=
  ⟨h.accepted, h.bank, h.bank.sized, h.forceSized, h.canonical, h.inRange, h.engine, h.controller⟩

/-! #### The host phase -/

theorem after_start (h : InvParts s) (hphase : s.phase ≠ .rung) : InvParts s.start := by
  unfold State.start
  split
  · exact ⟨h.accepted, h.bank, h.prevSized, h.forceSized, h.canonical, h.inRange, fun hp => absurd hp hphase,
      by simp, by simp, by simp⟩
  · exact h
  · exact h

theorem after_stop (h : InvParts s) (hphase : s.phase ≠ .rung) : InvParts s.stop := by
  unfold State.stop
  split
  · exact ⟨h.accepted, h.bank, h.prevSized, h.forceSized, h.canonical, h.inRange, fun hp => absurd hp hphase,
      by simp, by simp, h.controller.2.2⟩
  · exact h
  · exact h

theorem after_requestShutdown (h : InvParts s) : InvParts s.requestShutdown :=
  ⟨h.accepted, h.bank, h.prevSized, h.forceSized, h.canonical, h.inRange, h.engine, h.controller⟩

theorem after_applyOp (h : InvParts s) (hphase : s.phase ≠ .rung) (op : HostOp) : InvParts (applyOp op s).1 := by
  have hforce := applyOp_forceSized op h.forceSized
  rcases applyOp_cases op s with heq | heq | heq | heq | ⟨f, heq⟩ <;> rw [heq]
  · exact h
  · exact h.after_start hphase
  · exact h.after_stop hphase
  · exact h.after_requestShutdown
  · exact h.after_setForce (by simpa [heq] using hforce)

theorem after_hostPhase (h : InvParts s) (hphase : s.phase = .host) :
    InvParts (hostPhase s) ∧ (hostPhase s).phase = .host := by
  have hops : InvParts (applyOps s.hostOps s).1 ∧ (applyOps s.hostOps s).1.phase = .host :=
    applyOps_keeps (P := fun u => InvParts u ∧ u.phase = .host)
      (fun op u ⟨hu, hup⟩ => ⟨hu.after_applyOp (by simp [hup]) op, (applyOp_phase op u).trans hup⟩)
      s.hostOps s ⟨h, hphase⟩
  obtain ⟨⟨hacc, hbank, hprev, hforce, hcanon, hrange, heng, hctl⟩, hp⟩ := hops
  exact ⟨⟨hacc, hbank, hprev, hforce, hcanon, hrange, heng, hctl⟩, hp⟩

/-- The invariant is inductive: each phase and each instruction keeps it. -/
theorem after_step {t : State} (h : InvParts s) (hstep : step s = .next t) : InvParts t := by
  rcases step_cases hstep with ⟨hp, hstate, rfl⟩ | ⟨hp, rfl⟩ | ⟨hp, rfl⟩ | ⟨hp, -, rfl⟩ | ⟨hp, w, hw, hrun⟩
    | ⟨hp, u, hu, rfl⟩ | ⟨hp, rfl⟩ | ⟨hp, rfl⟩ | ⟨hp, rfl⟩
  · exact h.after_beginScan hp hstate
  · exact h.after_decodePhase.enterPhase (by simp [hp]) _ (by simp)
  · exact h.after_stepLoop hp
  · exact h.enterPhase (by simp [hp]) _ (by simp)
  · exact h.after_runWord (h.pc_lt_rungLen hp hw) hrun
  · obtain ⟨hinv, hphase⟩ := h.after_tickPhase hu
    exact hinv.enterPhase (by simp [hphase, hp]) u.eng (by simp)
  · exact h.after_encodePhase.enterPhase (by simp [hp]) _ (by simp)
  · exact h.after_deltaPhase.enterPhase (by simp [hp]) _ (by simp)
  · obtain ⟨hinv, hphase⟩ := h.after_hostPhase hp
    exact hinv.enterPhase (by simp [hphase]) _ (by simp)

end InvParts

/-- Settles O59: the invariant in its named parts is kept by every step. -/
theorem everyStepKeepsTheInvariant : Obligations.EveryStepKeepsTheInvariant := by
  unfold Obligations.EveryStepKeepsTheInvariant
  intro s t hinv hstep
  exact (inv_iff_invParts t).2 (((inv_iff_invParts s).1 hinv).after_step hstep)

end Sys2Proof.Machine
end

section
/-! PROOFS. Byte memory and the encode phase: what a big-endian access reads after a big-endian write
(spec/20_memory.md R63), and what stands in the raw output buffers after phase 3 (R66, spec/40_io_codec.md R108). -/

namespace Sys2Proof.Machine

open Sys2Proof

/-! ### Big-endian accesses -/

/-- A big-endian write lays byte `n-1-j` of the value at address `a + j`. -/
theorem Memory.read_writeBE_inside {m : Memory} (a n v : Nat) {j : Nat} (hm : m.wf = true) (hj : j < n) :
    (m.writeBE a n v).read (a + j) = BitVec.ofNat 8 (v / 256 ^ (n - 1 - j)) := by
  induction n generalizing m a j with
  | zero => omega
  | succ n ih =>
    have hw := Memory.wf_write a (BitVec.ofNat 8 (v / 256 ^ n)) hm
    rw [Memory.writeBE]
    cases j with
    | zero => rw [Memory.read_writeBE_outside _ _ _ _ hw (by omega), Nat.add_zero, Memory.read_write a _ a hm,
        if_pos rfl, Nat.add_sub_cancel, Nat.sub_zero]
    | succ j =>
      rw [← Nat.add_assoc, Nat.add_right_comm, ih (a + 1) hw (by omega)]
      congr 3
      omega

theorem Memory.readBE_writeBE {m : Memory} (a n v : Nat) (hm : m.wf = true) :
    (m.writeBE a n v).readBE a n = v % 256 ^ n := by
  induction n generalizing m a with
  | zero => simp [Memory.readBE, Nat.mod_one]
  | succ n ih =>
    have hw := Memory.wf_write a (BitVec.ofNat 8 (v / 256 ^ n)) hm
    have hfirst : (m.writeBE a (n + 1) v).read a = BitVec.ofNat 8 (v / 256 ^ n) :=
      Memory.read_writeBE_inside a (n + 1) v hm (Nat.succ_pos n)
    have hrest : (m.writeBE a (n + 1) v).readBE (a + 1) n = v % 256 ^ n := ih (a + 1) hw
    rw [Memory.readBE, hfirst, hrest, Nat.mod_pow_succ (x := v), BitVec.toNat_ofNat]
    ring

/-- The byte at the highest address is the least significant one. -/
theorem Memory.readBE_succ (m : Memory) (a n : Nat) :
    m.readBE a (n + 1) = m.readBE a n * 256 + (m.read (a + n)).toNat := by
  induction n generalizing a with
  | zero => simp [Memory.readBE]
  | succ n ih =>
    rw [Memory.readBE, ih (a + 1), Memory.readBE, Nat.pow_succ, show a + 1 + n = a + (n + 1) by omega]
    ring

/-- Settles O7: the bytes of a write, the bytes around it, and the number read back. -/
theorem bigEndianWritesAndReads : Obligations.BigEndianWritesAndReads := by
  unfold Obligations.BigEndianWritesAndReads
  exact ⟨fun m a n v hm => ⟨fun j => Memory.read_writeBE_inside a n v hm,
    fun c => Memory.read_writeBE_outside a n v c hm, Memory.readBE_writeBE a n v hm⟩, Memory.readBE_succ⟩

/-! ### The raw output buffers -/

theorem read_writeBytes (f : Nat → Byte) (n : Nat) {m : Memory} (hm : m.wf = true) (a : Nat) :
    Memory.read (writeBytes f n m) a = if a < n then f a else m.read a := by
  induction n with
  | zero => rfl
  | succ n ih =>
    rw [writeBytes, Memory.read_write n _ a (wf_writeBytes f n hm), ih]
    by_cases ha : a = n
    · simp [ha]
    · simp only [ha, if_false, Nat.lt_succ_iff_lt_or_eq, or_false]

theorem read_writeWords_outside (f : Nat → U64) (n : Nat) {m : Memory} (hm : m.wf = true) {a : Nat}
    (ha : 8 * n ≤ a) : Memory.read (writeWords f n m) a = m.read a := by
  induction n with
  | zero => rfl
  | succ n ih =>
    rw [writeWords, Memory.read_writeBE_outside _ _ _ _ (wf_writeWords f n hm) (by omega), ih (by omega)]

theorem readBE_writeWords (f : Nat → U64) (n : Nat) {m : Memory} (hm : m.wf = true) {i : Nat} (hi : i < n) :
    Memory.readBE (writeWords f n m) (8 * i) 8 = (f i).toNat := by
  induction n with
  | zero => omega
  | succ n ih =>
    have hw := wf_writeWords f n hm
    rw [writeWords]
    rcases Nat.lt_succ_iff_lt_or_eq.1 hi with hlt | rfl
    · rw [Memory.readBE_congr (8 * i) 8 fun c _ hc => Memory.read_writeBE_outside _ _ _ c hw (by omega), ih hlt]
    · rw [Memory.readBE_writeBE _ _ _ hw, Nat.mod_eq_of_lt]
      exact (f i).isLt

theorem drivenByte_getLsbD (s : State) (k : Nat) {j : Nat} (hj : j < 8) :
    (drivenByte s k).getLsbD j = drivenBit s (8 * k + j) := by
  unfold drivenByte
  simp only [BitVec.getLsbD_append]
  interval_cases j <;> simp

/-- Within the buffer, bit `i mod 8` of byte `i / 8` is driven by channel `i`. -/
theorem encodePhase_rawBit {s : State} (hwf : Memory.wf s.rawDO = true) {i : Nat}
    (hi : i / 8 < bitBytes s.cfg.nDO) :
    (Memory.read (encodePhase s).rawDO (i / 8)).getLsbD (i % 8) = drivenBit s i := by
  rw [encodePhase_rawDO, read_writeBytes _ _ hwf, if_pos hi, drivenByte_getLsbD s _ (Nat.mod_lt i (by decide)),
    Nat.div_add_mod]

/-- The significant bits of a sample, as a number. -/
theorem sampleBits_toNat (bits : Nat) (w : U64) : (sampleBits bits w).toNat = w.toNat % 2 ^ bits := by
  have hmask : w.toNat &&& (2 ^ bits - 1) % 2 ^ 64 = (w.toNat &&& (2 ^ bits - 1)) % 2 ^ 64 := by
    rw [Nat.and_mod_two_pow, Nat.mod_eq_of_lt w.isLt]
  rw [sampleBits, sampleMax, BitVec.toNat_and, BitVec.toNat_ofNat, hmask, Nat.and_two_pow_sub_one_eq_mod,
    Nat.mod_eq_of_lt ((Nat.mod_le _ _).trans_lt w.isLt)]

/-- Settles O37: byte by byte and word by word, the raw output buffers hold what drives them. -/
theorem encodePhaseDrivesTheOutputs : Obligations.EncodePhaseDrivesTheOutputs := by
  unfold Obligations.EncodePhaseDrivesTheOutputs
  intro s hDO hAO hphase
  refine ⟨stepEncode s, by simp only [step, hphase], fun i hi => ?_, fun i hi hbyte => ?_, fun a ha => ?_,
    fun i hi => ?_, fun a => read_writeWords_outside _ _ hAO, rfl⟩
  · refine (encodePhase_rawBit hDO (by unfold bitBytes; omega)).trans ?_
    simp [drivenBit, hi, BitForce.apply]
  · refine (encodePhase_rawBit hDO hbyte).trans ?_
    simp [drivenBit, hi]
  · exact (read_writeBytes _ _ hDO a).trans (if_neg (Nat.not_lt.2 ha))
  · exact (readBE_writeWords _ _ hAO hi).trans (sampleBits_toNat _ _)

end Sys2Proof.Machine
end

section
/-! PROOFS. What an instruction writes in the register bank: nothing, or the one slot its KIND and INDEX name
(spec/20_memory.md R69, spec/60_exceptions.md R265). -/

namespace Sys2Proof.Machine

open Sys2Proof

/-! ### A write of one slot -/

/-- The register bank with the slot of one kind and index written. -/
inductive SlotWrite (b : Bank) : Kind → Nat → Bank → Prop
  | dout (i : Nat) (f : DoSlot → DoSlot) : SlotWrite b .dout i (b.modDo i f)
  | ao (i : Nat) (v : F64) : SlotWrite b .ao i (b.setAo i v)
  | m (i : Nat) (f : MemSlot → MemSlot) : SlotWrite b .m i (b.modM i f)
  | mr (i : Nat) (v : F64) : SlotWrite b .mr i (b.setMr i v)
  | t (i : Nat) (f : TimerSlot → TimerSlot) : SlotWrite b .t i (b.modT i f)

section
variable {b b' : Bank} {k : Kind} {i j : Nat}

theorem SlotWrite.doAt_eq (h : SlotWrite b k i b') (hj : ¬ (k = .dout ∧ j = i)) : b'.doAt j = b.doAt j := by
  cases h with
  | dout i f => rw [Bank.doAt_modDo, if_neg fun ⟨hij, _⟩ => hj ⟨rfl, hij.symm⟩]
  | ao | m | mr | t => rfl

theorem SlotWrite.aoAt_eq (h : SlotWrite b k i b') (hj : ¬ (k = .ao ∧ j = i)) : b'.aoAt j = b.aoAt j := by
  cases h with
  | ao i v => rw [Bank.aoAt_setAo, if_neg fun ⟨hij, _⟩ => hj ⟨rfl, hij.symm⟩]
  | dout | m | mr | t => rfl

theorem SlotWrite.mAt_eq (h : SlotWrite b k i b') (hj : ¬ (k = .m ∧ j = i)) : b'.mAt j = b.mAt j := by
  cases h with
  | m i f => rw [Bank.mAt_modM, if_neg fun ⟨hij, _⟩ => hj ⟨rfl, hij.symm⟩]
  | dout | ao | mr | t => rfl

theorem SlotWrite.mrAt_eq (h : SlotWrite b k i b') (hj : ¬ (k = .mr ∧ j = i)) : b'.mrAt j = b.mrAt j := by
  cases h with
  | mr i v => rw [Bank.mrAt_setMr, if_neg fun ⟨hij, _⟩ => hj ⟨rfl, hij.symm⟩]
  | dout | ao | m | t => rfl

theorem SlotWrite.tAt_eq (h : SlotWrite b k i b') (hj : ¬ (k = .t ∧ j = i)) : b'.tAt j = b.tAt j := by
  cases h with
  | t i f => rw [Bank.tAt_modT, if_neg fun ⟨hij, _⟩ => hj ⟨rfl, hij.symm⟩]
  | dout | ao | m | mr => rfl

end

/-! ### The bank after the shared operations -/

theorem loadOp_bank (k : Kind) (i : Index) (w : Word) (s : State) : (loadOp k i w s).bank = s.bank := by
  rcases loadOp_cases k i w s with ⟨-, h⟩ | ⟨-, h⟩ <;> simp [h]

theorem combineOp_bank (f : Bool → Bool → Bool) (k : Kind) (i : Index) (w : Word) (s : State) :
    (combineOp f k i w s).bank = s.bank := by
  rcases combineOp_cases f k i w s with ⟨-, h⟩ | ⟨-, -, h⟩ | ⟨-, _, -, h⟩ <;> simp [h]

theorem jumpOp_bank (x : Index) (w : Word) (s : State) : (jumpOp x w s).bank = s.bank := by
  rcases jumpOp_cases x w s with ⟨-, h⟩ | ⟨-, -, h⟩ | ⟨-, -, h⟩ | ⟨-, -, h⟩ <;> simp [h]

theorem storeOp_bank (k : Kind) (i : Index) (wr : Value → Bank → Bank) (w : Word) (s : State) :
    (storeOp k i wr w s).bank = s.bank ∨ ∃ v, (storeOp k i wr w s).bank = wr v s.bank := by
  rcases storeOp_cases k i wr w s with ⟨-, h⟩ | ⟨-, -, h⟩ | ⟨-, -, -, h⟩ | ⟨-, -, v, -, h⟩ <;> rw [h]
  · exact .inl rfl
  · exact .inl rfl
  · exact .inl rfl
  · exact .inr ⟨v, rfl⟩

theorem setOp_bank (k : Kind) (i : Index) (wr : Bank → Bank) (w : Word) (s : State) :
    (setOp k i wr w s).bank = s.bank ∨ (setOp k i wr w s).bank = wr s.bank := by
  rcases setOp_cases k i wr w s with ⟨-, h⟩ | ⟨-, -, h⟩ | ⟨-, -, h⟩ | ⟨-, -, -, h⟩ | ⟨-, -, -, h⟩ <;> rw [h]
  · exact .inl rfl
  · exact .inl rfl
  · exact .inl rfl
  · exact .inl rfl
  · exact .inr rfl

/-! ### The bank after an instruction -/

/-- The opcode is that of ST, SET or RST (30_encoding.md R81). -/
def WritesSlot (i : Instr) : Prop := 5 ≤ (opField (encode i)).toNat ∧ (opField (encode i)).toNat ≤ 7

theorem writesSlot_of_encode {i : Instr} {b : BitVec 8} {x : Index} (he : encode i = b ++ x)
    (hb : 5 ≤ (b.extractLsb' 4 4).toNat ∧ (b.extractLsb' 4 4).toNat ≤ 7) : WritesSlot i := by
  obtain ⟨-, -, hop⟩ := Laws.EncodeFields.fields_append b x
  rw [WritesSlot, he, hop]
  exact hb

/-- An instruction leaves the register bank as it is, or it is a ST, SET or RST and writes the slot it names. -/
theorem exec_bank_cases {i : Instr} {s t : State} (h : exec i s = .next t) :
    t.bank = s.bank ∨ WritesSlot i ∧ ∃ k, i.slotKind = some k ∧ SlotWrite s.bank k i.index.toNat t.bank := by
  cases i with
  | ldDi x | ldRe x | ldFe x | ldDo x | ldAi x | ldAo x | ldM x | ldMr x | ldT x =>
    cases h; exact .inl (loadOp_bank _ _ _ _)
  | andDi x | andRe x | andFe x | andDo x | andAi x | andAo x | andM x | andMr x | andT x
  | orDi x | orRe x | orFe x | orDo x | orAi x | orAo x | orM x | orMr x | orT x
  | andnDi x | andnRe x | andnFe x | andnDo x | andnAi x | andnAo x | andnM x | andnMr x | andnT x
  | ornDi x | ornRe x | ornFe x | ornDo x | ornAi x | ornAo x | ornM x | ornMr x | ornT x =>
    cases h; exact .inl (combineOp_bank _ _ _ _ _)
  | jmp x => cases h; exact .inl (jumpOp_bank _ _ _)
  | stDo x | stAo x | stM x | stMr x =>
    cases h
    refine (storeOp_bank _ _ _ _ _).imp_right fun ⟨v, hv⟩ => ⟨writesSlot_of_encode rfl (by decide), _, rfl, ?_⟩
    rw [hv]
    constructor
  | setDo x | setAo x | setM x | setMr x | setT x | rstDo x | rstAo x | rstM x | rstMr x | rstT x =>
    cases h
    refine (setOp_bank _ _ _ _ _).imp_right fun hv => ⟨writesSlot_of_encode rfl (by decide), _, rfl, ?_⟩
    rw [hv]
    constructor

/-- Settles O34: the bank after an instruction is the old one or a write of the named slot. -/
theorem onlyTheNamedSlotCanChange : Obligations.OnlyTheNamedSlotCanChange := by
  unfold Obligations.OnlyTheNamedSlotCanChange
  intro i s t hexec
  rcases exec_bank_cases hexec with hbank | ⟨⟨hlo, hhi⟩, k, hk, hw⟩
  · simp [hbank]
  · simp only [hk, Option.some_inj]
    exact ⟨fun _ => hw.doAt_eq, fun _ => hw.aoAt_eq, fun _ => hw.mAt_eq, fun _ => hw.mrAt_eq, fun _ => hw.tAt_eq,
      fun hop => by omega⟩

end Sys2Proof.Machine
end

section
/-! PROOFS. The bytes of a snapshot (spec/20_memory.md R79): where each field of the register bank, of the forcing
registers and of the control registers stands, and the number its bytes make. -/

namespace Sys2Proof.Machine

open Sys2Proof

/-! ### Fields in a list of bytes -/

/-- The bytes `f` stand in `b` at the offset `a`. -/
def FieldAt (b : List Byte) (a : Nat) (f : List Byte) : Prop := ∃ rest, b.drop a = f ++ rest

/-- The number of the `n` bytes at `a`, the first the most significant. -/
def fieldNumber (b : List Byte) (a n : Nat) : Nat :=
  ((b.drop a).take n).foldl (fun x y => x * 256 + y.toNat) 0

section
variable {b : List Byte} {a : Nat}

theorem fieldAt_zero_self (b : List Byte) : FieldAt b 0 b := ⟨[], by simp⟩

theorem fieldAt_append {f g : List Byte} :
    FieldAt b a (f ++ g) ↔ FieldAt b a f ∧ FieldAt b (a + f.length) g := by
  unfold FieldAt
  rw [← List.drop_drop]
  constructor
  · rintro ⟨rest, h⟩
    exact ⟨⟨g ++ rest, by rw [h, List.append_assoc]⟩, rest, by rw [h, List.append_assoc, List.drop_left]⟩
  · rintro ⟨⟨_, hf⟩, rest, hg⟩
    rw [hf, List.drop_left] at hg
    exact ⟨rest, by rw [hf, hg, List.append_assoc]⟩

/-- Of blocks of `n` bytes each, block `i` stands `n * i` bytes after the first. -/
theorem FieldAt.block {l : List (List Byte)} {n : Nat} (h : FieldAt b a l.flatten) (hn : ∀ x ∈ l, x.length = n)
    {i : Nat} (hi : i < l.length) : FieldAt b (a + n * i) l[i] := by
  obtain ⟨rest, h⟩ := h
  rw [FieldAt, ← List.drop_drop, h, ← flatten_blocks_block n l hn i hi rest]
  exact ⟨_, (List.take_append_drop n _).symm⟩

theorem length_of_mem_mapIdx {α : Type} {l : List α} {g : Nat → α → List Byte} {n : Nat}
    (hn : ∀ i x, (g i x).length = n) : ∀ f ∈ l.mapIdx g, f.length = n := by
  intro f hf
  obtain ⟨i, hi, rfl⟩ := List.mem_mapIdx.1 hf
  exact hn i l[i]

theorem length_of_mem_map {α : Type} {l : List α} {g : α → List Byte} {n : Nat} (hn : ∀ x, (g x).length = n) :
    ∀ f ∈ l.map g, f.length = n := by
  intro f hf
  obtain ⟨x, -, rfl⟩ := List.mem_map.1 hf
  exact hn x

theorem FieldAt.slot_mapIdx {α : Type} {l : List α} {g : Nat → α → List Byte} {n : Nat}
    (h : FieldAt b a (l.mapIdx g).flatten) (hn : ∀ i x, (g i x).length = n) (d : α) {i : Nat} (hi : i < l.length) :
    FieldAt b (a + n * i) (g i (l.getD i d)) := by
  have hblock := h.block (length_of_mem_mapIdx hn) (hi.trans_eq (List.length_mapIdx).symm)
  rwa [List.getElem_mapIdx, ← List.getD_eq_getElem l d hi] at hblock

theorem FieldAt.slot_map {α : Type} {l : List α} {g : α → List Byte} {n : Nat}
    (h : FieldAt b a (l.map g).flatten) (hn : ∀ x, (g x).length = n) (d : α) {i : Nat} (hi : i < l.length) :
    FieldAt b (a + n * i) (g (l.getD i d)) := by
  have hblock := h.block (length_of_mem_map hn) (hi.trans_eq (List.length_map g).symm)
  rwa [List.getElem_map, ← List.getD_eq_getElem l d hi] at hblock

theorem FieldAt.number {n v : Nat} (h : FieldAt b a (bigEndian n v)) : fieldNumber b a n = v % 256 ^ n := by
  obtain ⟨rest, h⟩ := h
  rw [fieldNumber, h, List.take_left' (bigEndian_length n v), bigEndian_number, Nat.zero_mul, Nat.zero_add]

theorem FieldAt.u64 {v : U64} (h : FieldAt b a (u64Bytes v)) : fieldNumber b a 8 = v.toNat :=
  h.number.trans (Nat.mod_eq_of_lt v.isLt)

theorem FieldAt.f64 {v : F64} (h : FieldAt b a (f64Bytes v)) : fieldNumber b a 8 = v.bits.toNat := h.u64

theorem FieldAt.word {w : Word} (h : FieldAt b a (wordBytes w)) : fieldNumber b a 4 = w.toNat :=
  h.number.trans (Nat.mod_eq_of_lt w.isLt)

theorem FieldAt.bit {x : Bool} (h : FieldAt b a (bitByte x)) : fieldNumber b a 1 = if x then 1 else 0 := by
  have hbyte : bitByte x = bigEndian 1 (if x then 1 else 0) := by cases x <;> rfl
  rw [hbyte] at h
  rw [h.number]
  cases x <;> rfl

end

theorem length_flatten_mapIdx {α : Type} (l : List α) {g : Nat → α → List Byte} {n : Nat}
    (hn : ∀ i x, (g i x).length = n) : (l.mapIdx g).flatten.length = n * l.length := by
  rw [flatten_blocks_length n _ (length_of_mem_mapIdx hn), List.length_mapIdx]

theorem length_flatten_map {α : Type} (l : List α) {g : α → List Byte} {n : Nat}
    (hn : ∀ x, (g x).length = n) : (l.map g).flatten.length = n * l.length := by
  rw [flatten_blocks_length n _ (length_of_mem_map hn), List.length_map]

/-! ### The blocks of the slots -/

/-- The block of a digital input (10_state.md R22). -/
def diBytes (d : DiSlot) : List Byte := bitByte d.i ++ bitByte d.re ++ bitByte d.fe

/-- The block of a digital output (10_state.md R23). -/
def doBytes (d : DoSlot) : List Byte := bitByte d.q ++ bitByte d.setf ++ bitByte d.resetf

/-- The block of analog channel `i` with the ranges `r` (10_state.md R24, R25). -/
def analogBytes (r : List Range) (i : Nat) (v : F64) : List Byte :=
  f64Bytes v ++ f64Bytes (rangeAt r i).min ++ f64Bytes (rangeAt r i).max

/-- The block of integer memory slot `i` (10_state.md R26). -/
def memBytes (c : Cfg) (i : Nat) (x : MemSlot) : List Byte :=
  u64Bytes x.v ++ bitByte x.pulse ++ bitByte x.edge ++ bitByte x.setf ++ bitByte x.resetf
    ++ bitByte (memRo c i) ++ bitByte (memDown c i)

/-- The block of real memory slot `i` (10_state.md R27). -/
def realMemBytes (c : Cfg) (i : Nat) (v : F64) : List Byte := f64Bytes v ++ bitByte (realMemRo c i)

/-- The block of timer `i` (10_state.md R28). -/
def timerBytes (c : Cfg) (i : Nat) (x : TimerSlot) : List Byte :=
  u64Bytes x.c ++ u64Bytes x.v ++ bitByte x.q ++ bitByte x.start
    ++ u64Bytes (timerCfgAt c i).scale ++ u64Bytes (timerCfgAt c i).preset ++ bitByte (timerCfgAt c i).onDelay

/-- The block of blinker `i` (10_state.md R29). -/
def blinkerBytes (c : Cfg) (i : Nat) (x : BlinkerSlot) : List Byte :=
  u64Bytes x.c ++ bitByte x.q ++ u64Bytes (blinkerScaleAt c i)

/-- The block of a digital channel's forcing registers (10_state.md R30). -/
def bitForceBytes (f : BitForce) : List Byte := bitByte f.mask ++ bitByte f.value

/-- The block of an analog channel's forcing registers (10_state.md R31). -/
def realForceBytes (f : RealForce) : List Byte := bitByte f.on ++ f64Bytes f.value

/-! ### The snapshot as sections of blocks -/

theorem snapshot_bankBytes (s : State) : (snapshot s).bankBytes =
    (s.bank.di.map diBytes).flatten ++ (s.bank.dout.map doBytes).flatten
    ++ (s.bank.ai.mapIdx (analogBytes s.cfg.ai)).flatten ++ (s.bank.ao.mapIdx (analogBytes s.cfg.ao)).flatten
    ++ (s.bank.m.mapIdx (memBytes s.cfg)).flatten ++ (s.bank.mr.mapIdx (realMemBytes s.cfg)).flatten
    ++ (s.bank.t.mapIdx (timerBytes s.cfg)).flatten ++ (s.bank.b.mapIdx (blinkerBytes s.cfg)).flatten := by
  have hm : ∀ i, (s.cfg.m.map fun x => (x.ro, x.down)).getD i default = (memRo s.cfg i, memDown s.cfg i) :=
    fun i => List.getD_map s.cfg.m (default : MemCfg) fun x => (x.ro, x.down)
  have hmr : ∀ i, (s.cfg.mr.map fun x => x.ro).getD i default = realMemRo s.cfg i :=
    fun i => List.getD_map s.cfg.mr (default : RealMemCfg) fun x => x.ro
  simp only [Snapshot.bankBytes, snapshot, hm, hmr]
  rfl

theorem snapshot_forceBytes (s : State) : (snapshot s).forceBytes =
    (s.force.di.map bitForceBytes).flatten ++ (s.force.dout.map bitForceBytes).flatten
    ++ (s.force.ai.map realForceBytes).flatten ++ (s.force.ao.map realForceBytes).flatten := rfl

theorem snapshot_controlBytes (s : State) : (snapshot s).controlBytes =
    wordBytes (statusWord s.ctl) ++ wordBytes s.ctl.errRung ++ wordBytes s.ctl.errPc ++ wordBytes s.ctl.errWord
    ++ wordBytes (deltaWord s.ctl) := rfl

/-! ### The lengths of the blocks -/

theorem diBytes_length (d : DiSlot) : (diBytes d).length = 3 := rfl
theorem doBytes_length (d : DoSlot) : (doBytes d).length = 3 := rfl
theorem analogBytes_length (r : List Range) (i : Nat) (v : F64) : (analogBytes r i v).length = 24 := by
  simp [analogBytes]
theorem memBytes_length (c : Cfg) (i : Nat) (x : MemSlot) : (memBytes c i x).length = 14 := by simp [memBytes]
theorem realMemBytes_length (c : Cfg) (i : Nat) (v : F64) : (realMemBytes c i v).length = 9 := by
  simp [realMemBytes]
theorem timerBytes_length (c : Cfg) (i : Nat) (x : TimerSlot) : (timerBytes c i x).length = 35 := by
  simp [timerBytes]
theorem blinkerBytes_length (c : Cfg) (i : Nat) (x : BlinkerSlot) : (blinkerBytes c i x).length = 17 := by
  simp [blinkerBytes]
theorem bitForceBytes_length (f : BitForce) : (bitForceBytes f).length = 2 := rfl
theorem realForceBytes_length (f : RealForce) : (realForceBytes f).length = 9 := by simp [realForceBytes]

/-! ### The numbers in a block -/

section
variable {b : List Byte} {a : Nat}

theorem FieldAt.diNumbers {d : DiSlot} (h : FieldAt b a (diBytes d)) :
    fieldNumber b a 1 = (if d.i then 1 else 0) ∧ fieldNumber b (a + 1) 1 = (if d.re then 1 else 0)
      ∧ fieldNumber b (a + 2) 1 = (if d.fe then 1 else 0) := by
  obtain ⟨hi, hre, hfe⟩ := by simpa [diBytes, fieldAt_append] using h
  exact ⟨hi.bit, hre.bit, hfe.bit⟩

theorem FieldAt.doNumbers {d : DoSlot} (h : FieldAt b a (doBytes d)) :
    fieldNumber b a 1 = (if d.q then 1 else 0) ∧ fieldNumber b (a + 1) 1 = (if d.setf then 1 else 0)
      ∧ fieldNumber b (a + 2) 1 = (if d.resetf then 1 else 0) := by
  obtain ⟨hq, hset, hreset⟩ := by simpa [doBytes, fieldAt_append] using h
  exact ⟨hq.bit, hset.bit, hreset.bit⟩

theorem FieldAt.analogNumbers {r : List Range} {i : Nat} {v : F64} (h : FieldAt b a (analogBytes r i v)) :
    fieldNumber b a 8 = v.bits.toNat ∧ fieldNumber b (a + 8) 8 = (rangeAt r i).min.bits.toNat
      ∧ fieldNumber b (a + 16) 8 = (rangeAt r i).max.bits.toNat := by
  obtain ⟨hv, hmin, hmax⟩ := by simpa [analogBytes, fieldAt_append] using h
  exact ⟨hv.f64, hmin.f64, hmax.f64⟩

theorem FieldAt.memNumbers {c : Cfg} {i : Nat} {x : MemSlot} (h : FieldAt b a (memBytes c i x)) :
    fieldNumber b a 8 = x.v.toNat ∧ fieldNumber b (a + 8) 1 = (if x.pulse then 1 else 0)
      ∧ fieldNumber b (a + 9) 1 = (if x.edge then 1 else 0) ∧ fieldNumber b (a + 10) 1 = (if x.setf then 1 else 0)
      ∧ fieldNumber b (a + 11) 1 = (if x.resetf then 1 else 0)
      ∧ fieldNumber b (a + 12) 1 = (if memRo c i then 1 else 0)
      ∧ fieldNumber b (a + 13) 1 = (if memDown c i then 1 else 0) := by
  obtain ⟨hv, hpulse, hedge, hset, hreset, hro, hdown⟩ := by simpa [memBytes, fieldAt_append] using h
  exact ⟨hv.u64, hpulse.bit, hedge.bit, hset.bit, hreset.bit, hro.bit, hdown.bit⟩

theorem FieldAt.realMemNumbers {c : Cfg} {i : Nat} {v : F64} (h : FieldAt b a (realMemBytes c i v)) :
    fieldNumber b a 8 = v.bits.toNat ∧ fieldNumber b (a + 8) 1 = (if realMemRo c i then 1 else 0) := by
  obtain ⟨hv, hro⟩ := by simpa [realMemBytes, fieldAt_append] using h
  exact ⟨hv.f64, hro.bit⟩

theorem FieldAt.timerNumbers {c : Cfg} {i : Nat} {x : TimerSlot} (h : FieldAt b a (timerBytes c i x)) :
    fieldNumber b a 8 = x.c.toNat ∧ fieldNumber b (a + 8) 8 = x.v.toNat
      ∧ fieldNumber b (a + 16) 1 = (if x.q then 1 else 0) ∧ fieldNumber b (a + 17) 1 = (if x.start then 1 else 0)
      ∧ fieldNumber b (a + 18) 8 = (timerCfgAt c i).scale.toNat
      ∧ fieldNumber b (a + 26) 8 = (timerCfgAt c i).preset.toNat
      ∧ fieldNumber b (a + 34) 1 = (if (timerCfgAt c i).onDelay then 1 else 0) := by
  obtain ⟨hc, hv, hq, hstart, hscale, hpreset, hmode⟩ := by simpa [timerBytes, fieldAt_append] using h
  exact ⟨hc.u64, hv.u64, hq.bit, hstart.bit, hscale.u64, hpreset.u64, hmode.bit⟩

theorem FieldAt.blinkerNumbers {c : Cfg} {i : Nat} {x : BlinkerSlot} (h : FieldAt b a (blinkerBytes c i x)) :
    fieldNumber b a 8 = x.c.toNat ∧ fieldNumber b (a + 8) 1 = (if x.q then 1 else 0)
      ∧ fieldNumber b (a + 9) 8 = (blinkerScaleAt c i).toNat := by
  obtain ⟨hc, hq, hscale⟩ := by simpa [blinkerBytes, fieldAt_append] using h
  exact ⟨hc.u64, hq.bit, hscale.u64⟩

theorem FieldAt.bitForceNumbers {f : BitForce} (h : FieldAt b a (bitForceBytes f)) :
    fieldNumber b a 1 = (if f.mask then 1 else 0) ∧ fieldNumber b (a + 1) 1 = (if f.value then 1 else 0) := by
  obtain ⟨hmask, hvalue⟩ := by simpa [bitForceBytes, fieldAt_append] using h
  exact ⟨hmask.bit, hvalue.bit⟩

theorem FieldAt.realForceNumbers {f : RealForce} (h : FieldAt b a (realForceBytes f)) :
    fieldNumber b a 1 = (if f.on then 1 else 0) ∧ fieldNumber b (a + 1) 8 = f.value.bits.toNat := by
  obtain ⟨hon, hvalue⟩ := by simpa [realForceBytes, fieldAt_append] using h
  exact ⟨hon.bit, hvalue.f64⟩

end

/-! ### The layout of the snapshot -/

/-- The lengths of the sections of the register bank. -/
theorem bankSections_length {s : State} (h : SizedBank s.cfg s.bank) :
    (s.bank.di.map diBytes).flatten.length = 3 * s.cfg.nDI
    ∧ (s.bank.dout.map doBytes).flatten.length = 3 * s.cfg.nDO
    ∧ (s.bank.ai.mapIdx (analogBytes s.cfg.ai)).flatten.length = 24 * s.cfg.ai.length
    ∧ (s.bank.ao.mapIdx (analogBytes s.cfg.ao)).flatten.length = 24 * s.cfg.ao.length
    ∧ (s.bank.m.mapIdx (memBytes s.cfg)).flatten.length = 14 * s.cfg.m.length
    ∧ (s.bank.mr.mapIdx (realMemBytes s.cfg)).flatten.length = 9 * s.cfg.mr.length
    ∧ (s.bank.t.mapIdx (timerBytes s.cfg)).flatten.length = 35 * s.cfg.t.length
    ∧ (s.bank.b.mapIdx (blinkerBytes s.cfg)).flatten.length = 17 * s.cfg.b.length := by
  obtain ⟨hdi, hdo, hai, hao, hm, hmr, ht, hb⟩ := h
  rw [← hdi, ← hdo, ← hai, ← hao, ← hm, ← hmr, ← ht, ← hb]
  exact ⟨length_flatten_map _ diBytes_length, length_flatten_map _ doBytes_length,
    length_flatten_mapIdx _ (analogBytes_length _), length_flatten_mapIdx _ (analogBytes_length _),
    length_flatten_mapIdx _ (memBytes_length _), length_flatten_mapIdx _ (realMemBytes_length _),
    length_flatten_mapIdx _ (timerBytes_length _), length_flatten_mapIdx _ (blinkerBytes_length _)⟩

/-- The lengths of the sections of the forcing registers. -/
theorem forceSections_length {c : Cfg} {f : Forcing} (h : SizedForcing c f) :
    (f.di.map bitForceBytes).flatten.length = 2 * c.nDI
    ∧ (f.dout.map bitForceBytes).flatten.length = 2 * c.nDO
    ∧ (f.ai.map realForceBytes).flatten.length = 9 * c.ai.length
    ∧ (f.ao.map realForceBytes).flatten.length = 9 * c.ao.length := by
  obtain ⟨hdi, hdo, hai, hao⟩ := h
  rw [← hdi, ← hdo, ← hai, ← hao]
  exact ⟨length_flatten_map _ bitForceBytes_length, length_flatten_map _ bitForceBytes_length,
    length_flatten_map _ realForceBytes_length, length_flatten_map _ realForceBytes_length⟩

theorem snapshot_bytes_length {s : State} (h : Sized s) : (snapshot s).bytes.length =
    3 * s.cfg.nDI + 3 * s.cfg.nDO + 24 * s.cfg.ai.length + 24 * s.cfg.ao.length + 14 * s.cfg.m.length
    + 9 * s.cfg.mr.length + 35 * s.cfg.t.length + 17 * s.cfg.b.length + 2 * s.cfg.nDI + 2 * s.cfg.nDO
    + 9 * s.cfg.ai.length + 9 * s.cfg.ao.length + 20 := by
  obtain ⟨hbank, -, hforce⟩ := h
  obtain ⟨hdi, hdo, hai, hao, hm, hmr, ht, hb⟩ := bankSections_length hbank
  obtain ⟨hfdi, hfdo, hfai, hfao⟩ := forceSections_length hforce
  simp only [Snapshot.bytes, snapshot_bankBytes, snapshot_forceBytes, snapshot_controlBytes, List.length_append,
    wordBytes_length, hdi, hdo, hai, hao, hm, hmr, ht, hb, hfdi, hfdo, hfai, hfao]
  omega

/-- Settles O54: `fieldAt_append` cuts the snapshot into its sections, a section is cut into blocks of one length, and
each block into its fields. -/
theorem snapshotBytesAreLaidOutSlotBySlot : Obligations.SnapshotBytesAreLaidOutSlotBySlot := by
  unfold Obligations.SnapshotBytesAreLaidOutSlotBySlot
  intro s hs
  have layout : FieldAt (snapshot s).bytes 0
      ((snapshot s).bankBytes ++ (snapshot s).forceBytes ++ (snapshot s).controlBytes) := fieldAt_zero_self _
  have hlength := snapshot_bytes_length hs
  obtain ⟨hbank, -, hforce⟩ := hs
  obtain ⟨hdi, hdo, hai, hao, hm, hmr, ht, hb⟩ := bankSections_length hbank
  obtain ⟨hfdi, hfdo, hfai, hfao⟩ := forceSections_length hforce
  simp only [snapshot_bankBytes, snapshot_forceBytes, snapshot_controlBytes, List.append_assoc, fieldAt_append,
    wordBytes_length, Nat.zero_add, hdi, hdo, hai, hao, hm, hmr, ht, hb, hfdi, hfdo, hfai, hfao] at layout
  obtain ⟨lDI, lDO, lAI, lAO, lM, lMR, lT, lB, lFDI, lFDO, lFAI, lFAO, lStatus, lRung, lPc, lWord, lDelta⟩ := layout
  obtain ⟨nDI, nDO, nAI, nAO, nM, nMR, nT, nB⟩ := hbank
  obtain ⟨nFDI, nFDO, nFAI, nFAO⟩ := hforce
  refine ⟨hlength, fun i hi => ?_, fun i hi => ?_, fun i hi => ?_, fun i hi => ?_, fun i hi => ?_, fun i hi => ?_,
    fun i hi => ?_, fun i hi => ?_, fun i hi => ?_, fun i hi => ?_, fun i hi => ?_, fun i hi => ?_,
    ⟨_, rfl, lStatus.word⟩, lRung.word, lPc.word, lWord.word, lDelta.word.trans (deltaWord_toNat _)⟩
  · have slot := lDI.slot_map diBytes_length default (hi.trans_eq nDI.symm)
    rw [Nat.zero_add] at slot
    exact slot.diNumbers
  · exact (lDO.slot_map doBytes_length default (hi.trans_eq nDO.symm)).doNumbers
  · exact (lAI.slot_mapIdx (analogBytes_length _) F64.zero (hi.trans_eq nAI.symm)).analogNumbers
  · exact (lAO.slot_mapIdx (analogBytes_length _) F64.zero (hi.trans_eq nAO.symm)).analogNumbers
  · exact (lM.slot_mapIdx (memBytes_length _) default (hi.trans_eq nM.symm)).memNumbers
  · exact (lMR.slot_mapIdx (realMemBytes_length _) F64.zero (hi.trans_eq nMR.symm)).realMemNumbers
  · exact (lT.slot_mapIdx (timerBytes_length _) default (hi.trans_eq nT.symm)).timerNumbers
  · exact (lB.slot_mapIdx (blinkerBytes_length _) default (hi.trans_eq nB.symm)).blinkerNumbers
  · exact (lFDI.slot_map bitForceBytes_length default (hi.trans_eq nFDI.symm)).bitForceNumbers
  · exact (lFDO.slot_map bitForceBytes_length default (hi.trans_eq nFDO.symm)).bitForceNumbers
  · exact (lFAI.slot_map realForceBytes_length default (hi.trans_eq nFAI.symm)).realForceNumbers
  · exact (lFAO.slot_map realForceBytes_length default (hi.trans_eq nFAO.symm)).realForceNumbers

end Sys2Proof.Machine
end

section
/-! PROOFS. The decoder and the encoder, field by field (spec/30_encoding.md R80 to R90): the numbers of the opcodes
and of the kinds, the one instruction with given fields, and the word as its three fields. -/

namespace Sys2Proof

/-! ### The numbers in the OP and KIND fields -/

/-- The value of the OP field that names an opcode (30_encoding.md R81). -/
def Opcode.number : Opcode → BitVec 4
  | .ld => 0#4
  | .and => 1#4
  | .or => 2#4
  | .andn => 3#4
  | .orn => 4#4
  | .st => 5#4
  | .set => 6#4
  | .rst => 7#4
  | .jmp => 8#4

/-- The value of the KIND field that names an operand kind (30_encoding.md R82). -/
def Kind.number : Kind → BitVec 4
  | .di => 0#4
  | .re => 1#4
  | .fe => 2#4
  | .dout => 3#4
  | .ai => 4#4
  | .ao => 5#4
  | .m => 6#4
  | .mr => 7#4
  | .t => 8#4

theorem opcodeOf_eq_some_iff {b : BitVec 4} {o : Opcode} : opcodeOf b = some o ↔ b = o.number := by
  cases o <;> revert b <;> decide

theorem kindOf_eq_some_iff {b : BitVec 4} {k : Kind} : kindOf b = some k ↔ b = k.number := by
  cases k <;> revert b <;> decide

theorem opcodeOf_eq_none_iff {b : BitVec 4} : opcodeOf b = none ↔ 9 ≤ b.toNat := by
  revert b; decide

theorem kindOf_eq_none_iff {b : BitVec 4} : kindOf b = none ↔ 9 ≤ b.toNat := by
  revert b; decide

theorem exists_opcodeOf {b : BitVec 4} (h : b.toNat < 9) : ∃ o, opcodeOf b = some o :=
  Option.ne_none_iff_exists'.1 fun hnone => by have := opcodeOf_eq_none_iff.1 hnone; omega

theorem exists_kindOf {b : BitVec 4} (h : b.toNat < 9) : ∃ k, kindOf b = some k :=
  Option.ne_none_iff_exists'.1 fun hnone => by have := kindOf_eq_none_iff.1 hnone; omega

/-! ### The instruction with given fields -/

/-- The opcode of an instruction (30_encoding.md R81). -/
def Instr.opcode : Instr → Opcode
  | .ldDi _ | .ldRe _ | .ldFe _ | .ldDo _ | .ldAi _ | .ldAo _ | .ldM _ | .ldMr _ | .ldT _ => .ld
  | .andDi _ | .andRe _ | .andFe _ | .andDo _ | .andAi _ | .andAo _ | .andM _ | .andMr _ | .andT _ => .and
  | .orDi _ | .orRe _ | .orFe _ | .orDo _ | .orAi _ | .orAo _ | .orM _ | .orMr _ | .orT _ => .or
  | .andnDi _ | .andnRe _ | .andnFe _ | .andnDo _ | .andnAi _ | .andnAo _ | .andnM _ | .andnMr _ | .andnT _ => .andn
  | .ornDi _ | .ornRe _ | .ornFe _ | .ornDo _ | .ornAi _ | .ornAo _ | .ornM _ | .ornMr _ | .ornT _ => .orn
  | .stDo _ | .stAo _ | .stM _ | .stMr _ => .st
  | .setDo _ | .setAo _ | .setM _ | .setMr _ | .setT _ => .set
  | .rstDo _ | .rstAo _ | .rstM _ | .rstMr _ | .rstT _ => .rst
  | .jmp _ => .jmp

/-- The kind that the KIND field of an instruction names: DI, which is number 0, in a JMP (30_encoding.md R87). -/
def Instr.kind (i : Instr) : Kind := i.slotKind.getD .di

/-- The instruction of an opcode, a kind and an INDEX, where the opcode goes with the kind (30_encoding.md R83). -/
def instrOf : Opcode → Kind → Index → Option Instr
  | .ld, k, x => some (.ld k x)
  | .and, k, x => some (.and k x)
  | .or, k, x => some (.or k x)
  | .andn, k, x => some (.andn k x)
  | .orn, k, x => some (.orn k x)
  | .st, k, x => Instr.st k x
  | .set, k, x => Instr.set k x
  | .rst, k, x => Instr.rst k x
  | .jmp, k, x => if k = .di then some (.jmp x) else none

theorem instrOf_fields (i : Instr) : instrOf i.opcode i.kind i.index = some i := by
  cases i <;> rfl

theorem fields_of_instrOf {o : Opcode} {k : Kind} {x : Index} {i : Instr} (h : instrOf o k x = some i) :
    i.opcode = o ∧ i.kind = k ∧ i.index = x := by
  cases o with
  | ld | and | or | andn | orn => cases h; cases k <;> exact ⟨rfl, rfl, rfl⟩
  | st | set | rst => cases k <;> cases h <;> exact ⟨rfl, rfl, rfl⟩
  | jmp =>
    obtain ⟨rfl, hi⟩ := Option.ite_none_right_eq_some.1 h
    cases hi
    exact ⟨rfl, rfl, rfl⟩

theorem slotKind_eq_some_kind {i : Instr} (h : i.opcode ≠ .jmp) : i.slotKind = some i.kind := by
  cases i with
  | jmp x => exact absurd rfl h
  | _ => rfl

/-- The pairs of the numbers of OP, below 8, and KIND that form an instruction (30_encoding.md R83). -/
abbrev ValidPair (op kind : Nat) : Prop :=
  op ≤ 4 ∨ kind = 3 ∨ kind = 5 ∨ kind = 6 ∨ kind = 7 ∨ (kind = 8 ∧ op ≠ 5)

theorem instrOf_isSome_iff {o : Opcode} (k : Kind) (x : Index) (ho : o ≠ .jmp) :
    (instrOf o k x).isSome = true ↔ ValidPair o.number.toNat k.number.toNat := by
  cases o with
  | ld | and | or | andn | orn => exact iff_of_true rfl (.inl (by decide))
  | st | set | rst => cases k <;> simp [ValidPair, instrOf, Instr.st, Instr.set, Instr.rst, Opcode.number, Kind.number]
  | jmp => exact absurd rfl ho

/-! ### A word as its three fields -/

theorem opField_toNat (w : Word) : (opField w).toNat = w.toNat / 2 ^ 28 := by
  rw [opField, BitVec.extractLsb'_toNat, Nat.shiftRight_eq_div_pow, Nat.mod_eq_of_lt]
  have := w.isLt
  omega

theorem kindField_toNat (w : Word) : (kindField w).toNat = w.toNat / 2 ^ 24 % 16 := by
  rw [kindField, BitVec.extractLsb'_toNat, Nat.shiftRight_eq_div_pow]

theorem indexField_eq_ofNat (w : Word) : indexField w = BitVec.ofNat 24 w.toNat := rfl

theorem indexField_toNat (w : Word) : (indexField w).toNat = w.toNat % 2 ^ 24 := by
  rw [indexField_eq_ofNat, BitVec.toNat_ofNat]

theorem fields_append_fields (w : Word) : (opField w ++ kindField w) ++ indexField w = w := by
  apply BitVec.eq_of_toNat_eq
  simp only [Machine.toNat_append_eq, opField_toNat, kindField_toNat, indexField_toNat]
  omega

theorem wordOfBytes_bytesOfWord (w : Word) :
    wordOfBytes (w.extractLsb' 24 8) (w.extractLsb' 16 8) (w.extractLsb' 8 8) (w.extractLsb' 0 8) = w := by
  apply BitVec.eq_of_toNat_eq
  simp only [wordOfBytes, Machine.toNat_append_eq, BitVec.extractLsb'_toNat, Nat.shiftRight_eq_div_pow]
  have := w.isLt
  omega

theorem encode_eq_append (i : Instr) : encode i = (i.opcode.number ++ i.kind.number) ++ i.index := by
  cases i <;> simp [encode, Instr.opcode, Instr.kind, Instr.slotKind, Instr.index, Opcode.number, Kind.number]

theorem fields_encode (i : Instr) :
    opField (encode i) = i.opcode.number ∧ kindField (encode i) = i.kind.number ∧ indexField (encode i) = i.index := by
  obtain ⟨hindex, hkind, hop⟩ := Laws.EncodeFields.fields_append (i.opcode.number ++ i.kind.number) i.index
  rw [encode_eq_append, hop, hkind, hindex]
  cases i.opcode <;> cases i.kind <;> exact ⟨rfl, rfl, rfl⟩

/-! ### The decoder on the fields of a word -/

section
variable {w : Word}

theorem decodeWord_of_reserved_opcode (ho : opcodeOf (opField w) = none) : decodeWord w = .error .badOperator := by
  simp only [decodeWord, ho]

theorem decodeWord_of_jmp (ho : opcodeOf (opField w) = some .jmp) :
    decodeWord w = if kindField w = 0#4 then .ok (.jmp (indexField w)) else .error .badOperand := by
  simp only [decodeWord, ho]

theorem decodeWord_of_reserved_kind {o : Opcode} (ho : opcodeOf (opField w) = some o)
    (hk : kindOf (kindField w) = none) : decodeWord w = .error .badOperand := by
  cases o with
  | jmp =>
    rw [decodeWord_of_jmp ho, if_neg]
    intro hzero
    rw [hzero] at hk
    cases hk
  | _ => simp only [decodeWord, ho, withKind, hk]

theorem decodeWord_of_kind {o : Opcode} {k : Kind} (ho : opcodeOf (opField w) = some o)
    (hk : kindOf (kindField w) = some k) (hj : o ≠ .jmp) : decodeWord w = orBadCoil (instrOf o k (indexField w)) := by
  cases o with
  | jmp => exact absurd rfl hj
  | _ => simp only [decodeWord, ho, withKind, hk, instrOf, orBadCoil]

/-- A word decodes to the instruction that has the word's three fields, and to no other. -/
theorem decodeWord_eq_ok_iff {i : Instr} :
    decodeWord w = .ok i ↔ ∃ o k, opcodeOf (opField w) = some o ∧ kindOf (kindField w) = some k
      ∧ instrOf o k (indexField w) = some i := by
  rcases ho : opcodeOf (opField w) with _ | o
  · simp [decodeWord_of_reserved_opcode ho]
  rcases hk : kindOf (kindField w) with _ | k
  · simp [decodeWord_of_reserved_kind ho hk]
  by_cases hj : o = .jmp
  · subst hj
    have hzero : kindField w = 0#4 ↔ k = .di := by
      rw [kindOf_eq_some_iff.1 hk]; cases k <;> decide
    rw [decodeWord_of_jmp ho]
    by_cases hdi : k = .di <;> simp [hzero, hdi, instrOf]
  · rw [decodeWord_of_kind ho hk hj]
    cases hi : instrOf o k (indexField w) <;> simp [orBadCoil, hi]

end

/-! ### Decoding and encoding undo each other -/

/-- Settles O1: the fields of the encoding are those of the instruction, and the decoder goes by the fields. -/
theorem decodeOfEncodeReturnsTheInstruction : Obligations.DecodeOfEncodeReturnsTheInstruction := by
  unfold Obligations.DecodeOfEncodeReturnsTheInstruction
  intro i
  obtain ⟨hop, hkind, hindex⟩ := fields_encode i
  exact decodeWord_eq_ok_iff.2 ⟨i.opcode, i.kind, opcodeOf_eq_some_iff.2 hop, kindOf_eq_some_iff.2 hkind,
    hindex ▸ instrOf_fields i⟩

/-- Settles O2: a word is its three fields, and the decoded instruction has just these. -/
theorem encodeOfDecodeReturnsTheWord : Obligations.EncodeOfDecodeReturnsTheWord := by
  unfold Obligations.EncodeOfDecodeReturnsTheWord
  intro w i h
  obtain ⟨o, k, ho, hk, hi⟩ := decodeWord_eq_ok_iff.1 h
  obtain ⟨hio, hik, hix⟩ := fields_of_instrOf hi
  calc encode i = (o.number ++ k.number) ++ indexField w := by rw [encode_eq_append, hio, hik, hix]
    _ = (opField w ++ kindField w) ++ indexField w := by rw [opcodeOf_eq_some_iff.1 ho, kindOf_eq_some_iff.1 hk]
    _ = w := fields_append_fields w

theorem decodeBytes_of_word (w : Word) {i : Instr} (h : decodeWord w = .ok i) (rest : List Byte) :
    decodeBytes (bytesOfWord w ++ rest) = .ok (i, rest) := by
  simp only [bytesOfWord, List.cons_append, List.nil_append, decodeBytes, wordOfBytes_bytesOfWord, h]

theorem decodeBytes_of_length_lt_four {l : List Byte} (h : l.length < 4) : decodeBytes l = .error .truncated := by
  match l, h with
  | [], _ | [_], _ | [_, _], _ | [_, _, _], _ => rfl

/-- Settles O3: the four bytes make the word again, which decodes by O1. -/
theorem encodedBytesDecodeAndLeaveTheRest : Obligations.EncodedBytesDecodeAndLeaveTheRest := by
  unfold Obligations.EncodedBytesDecodeAndLeaveTheRest
  intro i rest
  exact ⟨decodeBytes_of_word _ (decodeOfEncodeReturnsTheInstruction i) rest, decodeBytes_of_length_lt_four⟩

/-- Settles O5: each word is its top byte before the INDEX field. -/
theorem encodingsAreTheSpecsList : Obligations.EncodingsAreTheSpecsList := by
  unfold Obligations.EncodingsAreTheSpecsList
  intro i
  have row (b : BitVec 8) : (b ++ i).toNat = b.toNat * 2 ^ 24 + i.toNat := by
    rw [Machine.toNat_append_eq, Nat.mul_comm]
  and_intros
  all_goals exact row _

/-- Settles O6, by evaluating the decoder and the encoder on the ten words. -/
theorem specExampleWordsDecodeAndEncode : Obligations.SpecExampleWordsDecodeAndEncode := by
  unfold Obligations.SpecExampleWordsDecodeAndEncode
  decide

end Sys2Proof
end

section
/-! PROOFS. The static verdict of every word (spec/30_encoding.md R83, R86 to R88), and where the machine raises a
verdict or the step limit inside a rung (spec/47_rung_and_scan.md R211, R213, spec/60_exceptions.md R255). -/

namespace Sys2Proof.Machine

open Sys2Proof

/-! ### What a fetched word leads to -/

theorem runWord_of_limitReached {s : State} (w : Word) (h : limitReached s = true) :
    runWord w s = .next (s.raise .badProg w) := by
  rw [runWord, if_pos h]

theorem runWord_of_verdict {w : Word} {s : State} {e : ErrorKind} (hlim : limitReached s = false)
    (he : decodeWord w = .error e) : runWord w s = .next ((countStep s).raise e w) := by
  simp only [runWord, hlim, he, Bool.false_eq_true, if_false]

theorem countStep_eq (s : State) : countStep s =
    { s with eng := { s.eng with steps := if s.cfg.rungStepLimit = none then s.eng.steps else s.eng.steps + 1 } } := by
  unfold countStep
  split <;> simp [*]

/-- Inside a rung and before its end, a step runs the word at PC. -/
theorem step_eq_runWord {s : State} {r : Rung} (hphase : s.phase = .rung) (hrung : s.prog.rungs[s.eng.ri]? = some r)
    (hpc : s.eng.pc.toNat < r.len) (hword : r.base + s.eng.pc.toNat < s.prog.words) :
    step s = runWord (s.prog.word (r.base + s.eng.pc.toNat)) s := by
  have hfetch : fetch s = .word (s.prog.word (r.base + s.eng.pc.toNat)) := by
    simp only [fetch, hrung, if_neg hpc.ne, if_pos hword]
  simp only [step, hphase, stepRung, hfetch]

/-- Settles O9: the step runs the word at PC, which raises the step limit or its verdict. -/
theorem stepRaisesTheVerdictOrTheStepLimit : Obligations.StepRaisesTheVerdictOrTheStepLimit := by
  unfold Obligations.StepRaisesTheVerdictOrTheStepLimit
  refine ⟨fun s r e hphase hrung hpc hword hlimit he => ?_, fun s r hphase hrung hpc hword hlimit => ?_⟩
  · rw [step_eq_runWord hphase hrung hpc hword, Program.word, runWord_of_verdict (decide_eq_false hlimit) he,
      countStep_eq]
    rfl
  · rw [step_eq_runWord hphase hrung hpc hword, runWord_of_limitReached _ (decide_eq_true hlimit)]
    rfl

/-! ### The verdict by the numbers in the fields -/

section
variable {w : Word}

theorem decodeWord_of_op_eight (hop : (opField w).toNat = 8) :
    decodeWord w = if kindField w = 0#4 then .ok (.jmp (indexField w)) else .error .badOperand :=
  decodeWord_of_jmp (opcodeOf_eq_some_iff.2 (BitVec.eq_of_toNat_eq hop))

theorem decodeWord_of_reserved_kind_number (hop : (opField w).toNat ≤ 7) (hkind : 9 ≤ (kindField w).toNat) :
    decodeWord w = .error .badOperand := by
  obtain ⟨o, ho⟩ := exists_opcodeOf (by omega : (opField w).toNat < 9)
  exact decodeWord_of_reserved_kind ho (kindOf_eq_none_iff.2 hkind)

/-- A word with an opcode below JMP and a kind decodes by the pair of these two. -/
theorem decodeWord_of_numbers (hop : (opField w).toNat ≤ 7) (hkind : (kindField w).toNat ≤ 8) :
    ∃ o k, o ≠ .jmp ∧ kindOf (kindField w) = some k ∧ decodeWord w = orBadCoil (instrOf o k (indexField w))
      ∧ ((instrOf o k (indexField w)).isSome = true ↔ ValidPair (opField w).toNat (kindField w).toNat) := by
  obtain ⟨o, ho⟩ := exists_opcodeOf (by omega : (opField w).toNat < 9)
  obtain ⟨k, hk⟩ := exists_kindOf (by omega : (kindField w).toNat < 9)
  have hop_eq := opcodeOf_eq_some_iff.1 ho
  have hj : o ≠ .jmp := by
    rintro rfl
    rw [hop_eq] at hop
    exact absurd hop (by decide)
  refine ⟨o, k, hj, hk, decodeWord_of_kind ho hk hj, ?_⟩
  rw [hop_eq, kindOf_eq_some_iff.1 hk]
  exact instrOf_isSome_iff k _ hj

theorem decodeWord_of_not_validPair (hop : (opField w).toNat ≤ 7) (hkind : (kindField w).toNat ≤ 8)
    (hpair : ¬ ValidPair (opField w).toNat (kindField w).toNat) : decodeWord w = .error .badCoil := by
  obtain ⟨o, k, -, -, hdecode, hiff⟩ := decodeWord_of_numbers hop hkind
  rw [hdecode, Option.not_isSome_iff_eq_none.1 (hiff.not.2 hpair), orBadCoil]

theorem decodeWord_of_validPair (hop : (opField w).toNat ≤ 7) (hkind : (kindField w).toNat ≤ 8)
    (hpair : ValidPair (opField w).toNat (kindField w).toNat) :
    ∃ i k, decodeWord w = .ok i ∧ i.slotKind = some k ∧ kindOf (kindField w) = some k
      ∧ i.index = indexField w := by
  obtain ⟨o, k, hj, hk, hdecode, hiff⟩ := decodeWord_of_numbers hop hkind
  obtain ⟨i, hi⟩ := Option.isSome_iff_exists.1 (hiff.2 hpair)
  obtain ⟨rfl, rfl, hindex⟩ := fields_of_instrOf hi
  exact ⟨i, i.kind, by rw [hdecode, hi, orBadCoil], slotKind_eq_some_kind hj, hk, hindex⟩

end

/-- Settles O4: the numbers name the opcode and the kind, and the decoder's verdict follows from these. -/
theorem staticVerdictOfEveryWord : Obligations.StaticVerdictOfEveryWord := by
  unfold Obligations.StaticVerdictOfEveryWord
  refine ⟨fun w => ?_, fun w s e he hlim => runWord_of_verdict hlim he⟩
  have hzero : kindField w = 0#4 ↔ (kindField w).toNat = 0 := BitVec.toNat_inj.symm
  dsimp only
  rw [← opField_toNat, ← kindField_toNat, ← indexField_toNat, ← indexField_eq_ofNat, BitVec.ofNat_toNat,
    BitVec.setWidth_eq]
  refine ⟨fun hop => ?_, fun hop hkind => ?_, fun hop hkind => ?_, decodeWord_of_reserved_kind_number,
    decodeWord_of_not_validPair, fun hop hkind hpair => ?_⟩
  · exact decodeWord_of_reserved_opcode (opcodeOf_eq_none_iff.2 hop)
  · rw [decodeWord_of_op_eight hop, if_pos (hzero.2 hkind)]
  · rw [decodeWord_of_op_eight hop, if_neg (hzero.not.2 hkind)]
  · obtain ⟨i, k, hi, hslot, hk, hindex⟩ := decodeWord_of_validPair hop hkind hpair
    exact ⟨i, k, hi, hslot, hk, by rw [hindex]⟩

end Sys2Proof.Machine
end

section
/-! PROOFS. Binary64 rounding (spec/00_scope.md R11): the nearest integer, the magnitude that a rounded quotient has,
which magnitudes are exact, and the pattern of a rounded quotient. Magnitudes are in units of 2^-1074, as in the
model. -/

namespace Sys2Proof

/-! ### The nearest integer -/

section
variable {n d k : Nat}

/-- The nearest integer is at most half away from the quotient. -/
theorem roundHalfEven_bounds (n : Nat) (hd : 0 < d) :
    2 * n ≤ (2 * roundHalfEven n d + 1) * d ∧ 2 * roundHalfEven n d * d ≤ 2 * n + d := by
  have hdiv := Nat.div_add_mod n d
  have hmod := Nat.mod_lt n hd
  rw [Nat.mul_comm] at hdiv
  unfold roundHalfEven
  dsimp only
  split <;> constructor <;> (ring_nf at hdiv ⊢; omega)

theorem roundHalfEven_le (hd : 0 < d) (h : n ≤ k * d) : roundHalfEven n d ≤ k := by
  obtain ⟨-, hhi⟩ := roundHalfEven_bounds n hd
  by_contra hlt
  have hmul : (2 * (k + 1)) * d ≤ 2 * roundHalfEven n d * d := Nat.mul_le_mul_right d (by omega)
  linarith

theorem le_roundHalfEven (hd : 0 < d) (h : k * d ≤ n) : k ≤ roundHalfEven n d := by
  obtain ⟨hlo, -⟩ := roundHalfEven_bounds n hd
  by_contra hlt
  have hmul : (2 * roundHalfEven n d + 2) * d ≤ 2 * k * d := Nat.mul_le_mul_right d (by omega)
  linarith

theorem roundHalfEven_mul_self (k : Nat) (hd : 0 < d) : roundHalfEven (k * d) d = k :=
  Nat.le_antisymm (roundHalfEven_le hd le_rfl) (le_roundHalfEven hd le_rfl)

/-- An integer less than half away from the quotient is the nearest one. -/
theorem roundHalfEven_eq_of_close (hd : 0 < d) (hlo : 2 * n < (2 * k + 1) * d) (hhi : 2 * k * d < 2 * n + d) :
    roundHalfEven n d = k := by
  obtain ⟨hl, hh⟩ := roundHalfEven_bounds n hd
  have hle : 2 * roundHalfEven n d * d < (2 * k + 2) * d := by linarith
  have hge : 2 * k * d < (2 * roundHalfEven n d + 2) * d := by linarith
  have := Nat.lt_of_mul_lt_mul_right hle
  have := Nat.lt_of_mul_lt_mul_right hge
  omega

theorem roundHalfEven_mul_right (n d : Nat) {c : Nat} (hc : 0 < c) :
    roundHalfEven (n * c) (d * c) = roundHalfEven n d := by
  unfold roundHalfEven
  simp only [Nat.mul_div_mul_right n d hc, Nat.mul_mod_mul_right, ← Nat.mul_assoc, gt_iff_lt,
    Nat.mul_lt_mul_right hc, Nat.mul_left_inj hc.ne']

end

namespace F64

/-! ### The exponent and the magnitude of a rounded quotient -/

/-- The exponent of `roundBits` for a quotient with the integer part `q`. -/
def expo (q : Nat) : Nat := if q < 2 ^ 53 then 0 else q.log2 - 52

/-- The significand of `roundBits num den`. -/
def significand (num den : Nat) : Nat := roundHalfEven num (den * 2 ^ expo (num / den))

/-- The magnitude of the binary64 value nearest to `num / den` units, where it does not overflow. -/
def roundUnits (num den : Nat) : Nat := significand num den * 2 ^ expo (num / den)

theorem roundBits_eq (n d : Nat) :
    roundBits n d = min (expo (n / d) * 2 ^ 52 + significand n d) infMag := rfl

theorem expo_eq_of_range {q e : Nat} (hlo : 2 ^ (52 + e) ≤ q) (hhi : q < 2 ^ (53 + e)) : expo q = e := by
  have hlog : q.log2 = 52 + e := by
    have hq : q ≠ 0 := by have := Nat.two_pow_pos (52 + e); omega
    refine (Nat.log2_eq_iff hq).2 ⟨hlo, ?_⟩
    rwa [show 52 + e + 1 = 53 + e by omega]
  unfold expo
  split
  · rename_i h
    have := (Nat.pow_lt_pow_iff_right (by decide : 1 < 2)).1 (hlo.trans_lt h)
    omega
  · omega

theorem lt_two_pow_expo (q : Nat) : q < 2 ^ (53 + expo q) := by
  unfold expo
  split
  · assumption
  · rename_i h
    have hlog : q < 2 ^ (q.log2 + 1) := Nat.lt_log2_self
    exact hlog.trans_le (Nat.pow_le_pow_right (by decide) (by omega))

theorem expo_eq_zero_or (q : Nat) : expo q = 0 ∨ 2 ^ (52 + expo q) ≤ q := by
  unfold expo
  split
  · exact .inl rfl
  · rename_i h
    have hlog : 52 < q.log2 + 1 :=
      (Nat.pow_lt_pow_iff_right (by decide : 1 < 2)).1 ((by omega : 2 ^ 52 < q).trans Nat.lt_log2_self)
    rw [show 52 + (q.log2 - 52) = q.log2 by omega]
    exact .inr (Nat.log2_self_le (by omega))

section
variable {n d : Nat}

theorem expo_div_eq_of_range {e : Nat} (hd : 0 < d) (hlo : 2 ^ (52 + e) * d ≤ n) (hhi : n < 2 ^ (53 + e) * d) :
    expo (n / d) = e :=
  expo_eq_of_range ((Nat.le_div_iff_mul_le hd).2 hlo) ((Nat.div_lt_iff_lt_mul hd).2 hhi)

/-- The magnitude where the binade of the quotient is known. -/
theorem roundUnits_of_range {e : Nat} (hd : 0 < d) (hlo : 2 ^ (52 + e) * d ≤ n) (hhi : n < 2 ^ (53 + e) * d) :
    roundUnits n d = roundHalfEven n (d * 2 ^ e) * 2 ^ e := by
  rw [roundUnits, significand, expo_div_eq_of_range hd hlo hhi]

theorem significand_le (n : Nat) (hd : 0 < d) : significand n d ≤ 2 ^ 53 := by
  refine roundHalfEven_le (Nat.mul_pos hd (Nat.two_pow_pos _)) ?_
  have h := (Nat.div_lt_iff_lt_mul hd).1 (lt_two_pow_expo (n / d))
  rw [pow_add] at h
  linarith

theorem le_significand (n : Nat) (hd : 0 < d) : expo (n / d) = 0 ∨ 2 ^ 52 ≤ significand n d := by
  refine (expo_eq_zero_or (n / d)).imp_right fun h => le_roundHalfEven (Nat.mul_pos hd (Nat.two_pow_pos _)) ?_
  have h := (Nat.le_div_iff_mul_le hd).1 h
  rw [pow_add] at h
  linarith

/-- The magnitude times the denominator, with the unit in the last place of the quotient. -/
theorem roundUnits_mul (n d : Nat) : roundUnits n d * d = significand n d * (d * 2 ^ expo (n / d)) := by
  rw [roundUnits]
  ring

/-- The relative error of a rounding is at most 2^-53, from the smallest normal value on. -/
theorem roundUnits_error (hd : 0 < d) (hn : 2 ^ 52 * d ≤ n) :
    roundUnits n d * d * 2 ^ 53 ≤ n * (2 ^ 53 + 1) ∧ n * (2 ^ 53 - 1) ≤ roundUnits n d * d * 2 ^ 53 := by
  have hulp : 2 ^ 52 * (d * 2 ^ expo (n / d)) ≤ n := by
    rcases expo_eq_zero_or (n / d) with h | h
    · simpa [h] using hn
    · have h := (Nat.le_div_iff_mul_le hd).1 h
      rw [pow_add] at h
      linarith
  obtain ⟨hlo, hhi⟩ := roundHalfEven_bounds n (Nat.mul_pos hd (Nat.two_pow_pos (expo (n / d))))
  rw [roundUnits_mul, significand]
  constructor
  · linarith
  · norm_num at hulp ⊢
    linarith

end

/-! ### Exact magnitudes -/

/-- A magnitude with a significand of at most 53 bits: a binary64 magnitude, apart from overflow. -/
def Representable (m : Nat) : Prop := ∃ c j, c < 2 ^ 53 ∧ m = c * 2 ^ j

section
variable {m n d : Nat}

theorem Representable.two_pow_dvd (hm : Representable m) {e : Nat} (h : 2 ^ (52 + e) ≤ m) : 2 ^ e ∣ m := by
  obtain ⟨c, j, hc, rfl⟩ := hm
  have hlt : c * 2 ^ j < 2 ^ (53 + j) := by
    rw [pow_add]
    exact Nat.mul_lt_mul_of_pos_right hc (Nat.two_pow_pos j)
  have hej := (Nat.pow_lt_pow_iff_right (by decide : 1 < 2)).1 (h.trans_lt hlt)
  exact Nat.dvd_mul_left_of_dvd (Nat.pow_dvd_pow 2 (by omega)) c

/-- No representable magnitude lies between a quotient and a larger rounded one. -/
theorem Representable.roundUnits_le (hm : Representable m) (hd : 0 < d) (h : n ≤ m * d) : roundUnits n d ≤ m := by
  have hpos := Nat.mul_pos hd (Nat.two_pow_pos (expo (n / d)))
  have hdvd : 2 ^ expo (n / d) ∣ m := by
    rcases expo_eq_zero_or (n / d) with he | he
    · simp [he]
    · refine hm.two_pow_dvd (Nat.le_of_mul_le_mul_right ?_ hd)
      exact ((Nat.le_div_iff_mul_le hd).1 he).trans h
  obtain ⟨c, hc⟩ := hdvd
  have hle : significand n d ≤ c := roundHalfEven_le hpos (h.trans_eq (by rw [hc]; ring))
  calc roundUnits n d ≤ c * 2 ^ expo (n / d) := Nat.mul_le_mul_right _ hle
    _ = m := by rw [hc, Nat.mul_comm]

/-- No representable magnitude lies between a rounded quotient and a larger quotient. -/
theorem Representable.le_roundUnits (hm : Representable m) (hd : 0 < d) (h : m * d ≤ n) : m ≤ roundUnits n d := by
  have hpos := Nat.mul_pos hd (Nat.two_pow_pos (expo (n / d)))
  by_cases hdvd : 2 ^ expo (n / d) ∣ m
  · obtain ⟨c, hc⟩ := hdvd
    have hle : c ≤ significand n d := le_roundHalfEven hpos (le_of_eq_of_le (by rw [hc]; ring) h)
    calc m = c * 2 ^ expo (n / d) := by rw [hc, Nat.mul_comm]
      _ ≤ roundUnits n d := Nat.mul_le_mul_right _ hle
  · have hlt : m < 2 ^ (52 + expo (n / d)) := by
      by_contra hge
      exact hdvd (hm.two_pow_dvd (Nat.le_of_not_lt hge))
    rcases le_significand n hd with he | he
    · simp [he] at hdvd
    · rw [pow_add] at hlt
      exact hlt.le.trans (Nat.mul_le_mul_right _ he)

theorem Representable.roundUnits_eq (hm : Representable m) (hd : 0 < d) : roundUnits (m * d) d = m :=
  Nat.le_antisymm (hm.roundUnits_le hd le_rfl) (hm.le_roundUnits hd le_rfl)

end

/-! ### Patterns -/

theorem absBits_lt (x : F64) : x.absBits < 2 ^ 63 := Nat.mod_lt _ (Nat.two_pow_pos 63)

theorem neg_eq (x : F64) : x.neg = decide (2 ^ 63 ≤ x.bits.toNat) := by
  have hlt := x.bits.isLt
  rw [neg, BitVec.getLsbD, Nat.testBit_eq_decide_div_mod_eq]
  congr 1
  apply propext
  omega

section
variable {b : Nat}

theorem bits_ofParts_toNat (s : Bool) (hb : b < 2 ^ 63) :
    (ofParts s b).bits.toNat = (if s then 2 ^ 63 else 0) + b := by
  rw [ofParts, BitVec.toNat_ofNat, Nat.mod_eq_of_lt]
  split <;> omega

@[simp] theorem absBits_ofParts (s : Bool) (hb : b < 2 ^ 63) : (ofParts s b).absBits = b := by
  rw [absBits, bits_ofParts_toNat s hb]
  split <;> omega

@[simp] theorem neg_ofParts (s : Bool) (hb : b < 2 ^ 63) : (ofParts s b).neg = s := by
  rw [neg_eq, bits_ofParts_toNat s hb]
  cases s
  · simpa using hb
  · simp

end

/-- Two values are equal exactly when their patterns are. -/
theorem bits_inj {x y : F64} : x.bits = y.bits ↔ x = y := by
  cases x; cases y; simp

/-- A value is its sign and its lower 63 bits. -/
theorem ofParts_self (x : F64) : ofParts x.neg x.absBits = x := by
  have hlt := x.bits.isLt
  refine bits_inj.1 (BitVec.eq_of_toNat_eq ((bits_ofParts_toNat x.neg (absBits_lt x)).trans ?_))
  rw [neg_eq, absBits]
  simp only [decide_eq_true_eq]
  split <;> omega

theorem infMag_lt : infMag < 2 ^ 63 := by decide

theorem roundBits_lt (n d : Nat) : roundBits n d < 2 ^ 63 :=
  (Nat.min_le_right _ _).trans_lt infMag_lt

/-- The magnitude of the pattern with the exponent `e` and the significand `k`; a `k` of 2^53 carries. -/
theorem mag_of_absBits {x : F64} {e k : Nat} (hx : x.absBits = e * 2 ^ 52 + k) (hk : k ≤ 2 ^ 53)
    (he : e = 0 ∨ 2 ^ 52 ≤ k) : x.mag = k * 2 ^ e := by
  rcases Nat.lt_or_ge k (2 ^ 52) with hsub | hnormal
  · obtain rfl : e = 0 := he.resolve_right (by omega)
    have hexp : x.absBits / 2 ^ 52 = 0 := by omega
    have hfrac : x.absBits % 2 ^ 52 = k := by omega
    simp only [mag, hexp, hfrac, if_true, pow_zero, Nat.mul_one]
  rcases hk.lt_or_eq with hlt | rfl
  · have hexp : x.absBits / 2 ^ 52 = e + 1 := by omega
    have hfrac : x.absBits % 2 ^ 52 = k - 2 ^ 52 := by omega
    simp only [mag, hexp, hfrac, Nat.add_one_ne_zero, if_false, Nat.add_sub_cancel, Nat.add_sub_cancel' hnormal]
  · have hexp : x.absBits / 2 ^ 52 = e + 2 := by omega
    have hfrac : x.absBits % 2 ^ 52 = 0 := by omega
    simp only [mag, hexp, hfrac, Nat.add_eq_zero_iff, OfNat.ofNat_ne_zero, and_false, if_false]
    rw [show e + 2 - 1 = e + 1 by omega, pow_succ]
    ring

/-- Every pattern has an exponent and a significand of 53 bits, with its top bit set unless the exponent is 0. -/
theorem exists_significand (x : F64) :
    ∃ e k, k < 2 ^ 53 ∧ (e = 0 ∨ 2 ^ 52 ≤ k) ∧ x.absBits = e * 2 ^ 52 + k ∧ x.mag = k * 2 ^ e := by
  rcases Nat.lt_or_ge x.absBits (2 ^ 53) with h | h
  · exact ⟨0, x.absBits, h, .inl rfl, by omega, mag_of_absBits (by omega) h.le (.inl rfl)⟩
  · have habs : x.absBits = (x.absBits / 2 ^ 52 - 1) * 2 ^ 52 + (2 ^ 52 + x.absBits % 2 ^ 52) := by omega
    have hk : 2 ^ 52 + x.absBits % 2 ^ 52 < 2 ^ 53 := by omega
    exact ⟨_, _, hk, .inr (Nat.le_add_right _ _), habs, mag_of_absBits habs hk.le (.inr (Nat.le_add_right _ _))⟩

theorem representable_mag (x : F64) : Representable x.mag := by
  obtain ⟨e, k, hk, -, -, hmag⟩ := exists_significand x
  exact ⟨k, e, hk, hmag⟩

theorem expo_significand {e k : Nat} (hk : k < 2 ^ 53) (he : e = 0 ∨ 2 ^ 52 ≤ k) : expo (k * 2 ^ e) = e := by
  rcases he with rfl | he
  · exact if_pos (by simpa using hk)
  · refine expo_eq_of_range ?_ ?_ <;> rw [pow_add]
    · exact Nat.mul_le_mul_right _ he
    · exact Nat.mul_lt_mul_of_pos_right hk (Nat.two_pow_pos e)

/-- The lower bits of a finite value are those of its own magnitude, rounded. -/
theorem roundBits_mag {x : F64} (hx : x.isFinite = true) : roundBits x.mag 1 = x.absBits := by
  obtain ⟨e, k, hk, he, habs, hmag⟩ := exists_significand x
  have hfin : x.absBits < infMag := of_decide_eq_true hx
  rw [roundBits_eq, significand, Nat.div_one, hmag, expo_significand hk he, Nat.one_mul,
    roundHalfEven_mul_self k (Nat.two_pow_pos e), ← habs, Nat.min_eq_left hfin.le]

theorem round_mag {x : F64} (hx : x.isFinite = true) : round x.neg x.mag 1 = x := by
  rw [round, roundBits_mag hx, ofParts_self]

/-! ### A quotient below 2^1023 rounds to a finite value -/

section
variable {n d : Nat}

theorem roundBits_of_lt (hd : 0 < d) (h : n < 2 ^ 2097 * d) :
    roundBits n d = expo (n / d) * 2 ^ 52 + significand n d ∧ roundBits n d < infMag := by
  have hexpo : expo (n / d) ≤ 2044 := by
    rcases expo_eq_zero_or (n / d) with he | he
    · omega
    · have := (Nat.pow_lt_pow_iff_right (by decide : 1 < 2)).1 (he.trans_lt ((Nat.div_lt_iff_lt_mul hd).2 h))
      omega
  have hsig := significand_le n hd
  have hlt : expo (n / d) * 2 ^ 52 + significand n d < infMag := by
    unfold infMag
    omega
  rw [roundBits_eq, Nat.min_eq_left hlt.le]
  exact ⟨rfl, hlt⟩

theorem isFinite_round (s : Bool) (hd : 0 < d) (h : n < 2 ^ 2097 * d) : (round s n d).isFinite = true := by
  rw [isFinite, round, absBits_ofParts s (roundBits_lt n d)]
  exact decide_eq_true (roundBits_of_lt hd h).2

theorem mag_round (s : Bool) (hd : 0 < d) (h : n < 2 ^ 2097 * d) : (round s n d).mag = roundUnits n d :=
  mag_of_absBits ((absBits_ofParts s (roundBits_lt n d)).trans (roundBits_of_lt hd h).1) (significand_le n hd)
    (le_significand n hd)

@[simp] theorem neg_round (s : Bool) (n d : Nat) : (round s n d).neg = s :=
  neg_ofParts s (roundBits_lt n d)

end

theorem roundUnits_mul_right (n d : Nat) {c : Nat} (hc : 0 < c) : roundUnits (n * c) (d * c) = roundUnits n d := by
  rw [roundUnits, significand, Nat.mul_div_mul_right n d hc, Nat.mul_right_comm, roundHalfEven_mul_right n _ hc]
  rfl

theorem roundUnits_le_two_pow {n d a : Nat} (hd : 0 < d) (h : n ≤ 2 ^ a * d) : roundUnits n d ≤ 2 ^ a :=
  Representable.roundUnits_le ⟨1, a, by decide, (Nat.one_mul _).symm⟩ hd h

end F64
end Sys2Proof
end

section
/-! PROOFS. The binary64 operations on finite values: each computes exactly and rounds once (spec/00_scope.md R11). -/

namespace Sys2Proof
namespace F64

/-! ### Zeros and finite values -/

theorem mag_eq_zero_iff (x : F64) : x.mag = 0 ↔ x.absBits = 0 := by
  obtain ⟨e, k, -, he, habs, hmag⟩ := exists_significand x
  rw [hmag, habs, Nat.mul_eq_zero]
  have := Nat.two_pow_pos e
  constructor
  · rintro (rfl | h)
    · simpa using he
    · omega
  · intro h
    exact .inl (by omega)

theorem isZero_iff (x : F64) : x.isZero = true ↔ x.mag = 0 := by
  rw [isZero, decide_eq_true_eq, mag_eq_zero_iff]

section
variable {x y z : F64}

theorem isFinite_of_isZero (h : z.isZero = true) : z.isFinite = true := by
  have h := of_decide_eq_true h
  rw [isFinite, h]
  rfl

theorem isNaN_of_isFinite (h : x.isFinite = true) : x.isNaN = false := by
  have h := of_decide_eq_true h
  exact decide_eq_false (by omega)

theorem isInf_of_isFinite (h : x.isFinite = true) : x.isInf = false := by
  have h := of_decide_eq_true h
  exact decide_eq_false (by omega)

theorem units_of_isZero (h : z.isZero = true) : z.units = 0 := by
  rw [units, (isZero_iff z).1 h]
  simp

theorem natAbs_units (x : F64) : x.units.natAbs = x.mag := by
  unfold units
  split <;> simp

theorem decide_units_lt_zero (x : F64) (h : x.mag ≠ 0) : decide (x.units < 0) = x.neg := by
  unfold units
  cases x.neg
  · simp
  · simpa using Nat.pos_of_ne_zero h

@[simp] theorem absBits_negate (x : F64) : x.negate.absBits = x.absBits := absBits_ofParts _ (absBits_lt x)
@[simp] theorem neg_negate (x : F64) : x.negate.neg = !x.neg := neg_ofParts _ (absBits_lt x)
@[simp] theorem isZero_negate (x : F64) : x.negate.isZero = x.isZero := by rw [isZero, isZero, absBits_negate]

/-! ### The operations on finite values -/

theorem add_of_isFinite (hx : x.isFinite = true) (hy : y.isFinite = true) : add x y =
    if x.units + y.units = 0 then ofParts (x.neg && y.neg) 0
    else round (decide (x.units + y.units < 0)) (x.units + y.units).natAbs 1 := by
  simp [add, isNaN_of_isFinite, isInf_of_isFinite, hx, hy]

theorem mul_of_isFinite (hx : x.isFinite = true) (hy : y.isFinite = true) :
    mul x y = round (x.neg != y.neg) (x.mag * y.mag) unitsPerOne := by
  simp [mul, isNaN_of_isFinite, isInf_of_isFinite, hx, hy]

theorem div_of_isFinite (hx : x.isFinite = true) (hy : y.isFinite = true) (hy0 : y.isZero = false) :
    div x y = round (x.neg != y.neg) (x.mag * unitsPerOne) y.mag := by
  simp [div, isNaN_of_isFinite, isInf_of_isFinite, hx, hy, hy0]

/-- A zero of either sign added to a finite value gives the value, unless both are zeros of different signs. -/
theorem add_zero_right (hx : x.isFinite = true) (hz : z.isZero = true) (h : x.neg = false ∨ x.isZero = false) :
    add x z = x := by
  rw [add_of_isFinite hx (isFinite_of_isZero hz), units_of_isZero hz, Int.add_zero, natAbs_units]
  by_cases hmag : x.mag = 0
  · have hneg : x.neg = false := h.resolve_right (by simp [(isZero_iff x).2 hmag])
    have habs : x.absBits = 0 := (mag_eq_zero_iff x).1 hmag
    have hself := ofParts_self x
    rw [hneg, habs] at hself
    rw [if_pos (by simpa [hmag] using natAbs_units x), hneg, Bool.false_and, hself]
  · rw [if_neg (by rw [← Int.natAbs_eq_zero, natAbs_units]; exact hmag), decide_units_lt_zero x hmag, round_mag hx]

theorem add_comm_of_isFinite (hx : x.isFinite = true) (hy : y.isFinite = true) : add x y = add y x := by
  rw [add_of_isFinite hx hy, add_of_isFinite hy hx, Int.add_comm, Bool.and_comm]

theorem mul_comm_of_isFinite (hx : x.isFinite = true) (hy : y.isFinite = true) : mul x y = mul y x := by
  rw [mul_of_isFinite hx hy, mul_of_isFinite hy hx, Nat.mul_comm, bne_comm (a := x.neg)]

theorem sub_zero_right (hx : x.isFinite = true) (hz : z.isZero = true) (h : x.neg = false ∨ x.isZero = false) :
    sub x z = x :=
  add_zero_right hx ((isZero_negate z).trans hz) h

end

/-! ### Finite values of a positive sign -/

/-- `x` is finite, has no sign bit and the magnitude `m`. -/
structure HasMag (x : F64) (m : Nat) : Prop where
  neg : x.neg = false
  finite : x.isFinite = true
  mag : x.mag = m

theorem unitsPerOne_eq : unitsPerOne = 2 ^ 1074 := by rw [unitsPerOne]

theorem unitsPerOne_pos : 0 < unitsPerOne := by
  rw [unitsPerOne_eq]
  positivity

section
variable {x y z : F64} {a b n d : Nat}

theorem HasMag.units (h : HasMag x a) : x.units = a := by
  rw [F64.units, h.neg, h.mag]
  rfl

theorem HasMag.eq_round (h : HasMag x a) : x = F64.round false a 1 := by
  rw [← h.mag, ← h.neg, round_mag h.finite]

theorem HasMag.isZero_eq_false (h : HasMag x a) (ha : 0 < a) : x.isZero = false := by
  rw [← Bool.not_eq_true, isZero_iff, h.mag]
  omega

theorem hasMag_round (hd : 0 < d) (h : n < 2 ^ 2097 * d) : HasMag (F64.round false n d) (roundUnits n d) :=
  ⟨neg_round false n d, isFinite_round false hd h, mag_round false hd h⟩

theorem hasMag_zero : HasMag F64.zero 0 := by
  constructor <;> decide

/-- A sum with a zero on the left. -/
theorem HasMag.zero_add (h : HasMag x a) (hz : z.isZero = true) : add z x = x := by
  rw [add_comm_of_isFinite (isFinite_of_isZero hz) h.finite, add_zero_right h.finite hz (.inl h.neg)]

theorem HasMag.sub_zero (h : HasMag x a) (hz : z.isZero = true) : sub x z = x :=
  sub_zero_right h.finite hz (.inl h.neg)

theorem HasMag.mul (hx : HasMag x a) (hy : HasMag y (b * unitsPerOne)) (h : a * b < 2 ^ 2097) :
    HasMag (F64.mul x y) (roundUnits (a * b) 1) := by
  have hscale := roundUnits_mul_right (a * b) 1 unitsPerOne_pos
  rw [Nat.one_mul] at hscale
  rw [mul_of_isFinite hx.finite hy.finite, hx.neg, hy.neg, hx.mag, hy.mag, ← hscale, ← Nat.mul_assoc]
  exact hasMag_round unitsPerOne_pos (Nat.mul_lt_mul_of_pos_right h unitsPerOne_pos)

theorem HasMag.div (hx : HasMag x a) (hy : HasMag y (b * unitsPerOne)) (hb : 0 < b) (h : a < 2 ^ 2097 * b) :
    HasMag (F64.div x y) (roundUnits a b) := by
  have hpos := Nat.mul_pos hb unitsPerOne_pos
  rw [div_of_isFinite hx.finite hy.finite (hy.isZero_eq_false hpos), hx.neg, hy.neg, hx.mag, hy.mag,
    ← roundUnits_mul_right a b unitsPerOne_pos]
  refine hasMag_round hpos ?_
  rw [← Nat.mul_assoc]
  exact Nat.mul_lt_mul_of_pos_right h unitsPerOne_pos

/-- The nearest value to a natural number up to 64 bits. -/
theorem hasMag_ofNat_roundUnits (hn : n < 2 ^ 64) : HasMag (F64.ofNat n) (roundUnits (n * unitsPerOne) 1) := by
  refine hasMag_round Nat.one_pos ?_
  calc n * unitsPerOne < 2 ^ 64 * unitsPerOne := Nat.mul_lt_mul_of_pos_right hn unitsPerOne_pos
    _ = 2 ^ (64 + 1074) := by rw [unitsPerOne_eq, ← pow_add]
    _ ≤ 2 ^ 2097 * 1 := by rw [Nat.mul_one]; gcongr <;> decide

theorem representable_units (hn : n < 2 ^ 53) : Representable (n * unitsPerOne) :=
  ⟨n, 1074, hn, by rw [unitsPerOne_eq]⟩

/-- A natural number below 2^53 is exact. -/
theorem hasMag_ofNat (hn : n < 2 ^ 53) : HasMag (F64.ofNat n) (n * unitsPerOne) := by
  have hexact := (representable_units hn).roundUnits_eq Nat.one_pos
  rw [Nat.mul_one] at hexact
  simpa only [hexact] using hasMag_ofNat_roundUnits (hn.trans (by decide))

end

end F64
end Sys2Proof
end

section
/-! PROOFS. The sign of a binary64 result, infinities and NaN included. -/

namespace Sys2Proof
namespace F64

/-! ### Products and quotients with a positive value -/

/-- A NaN, or a value at or below 0. -/
def NotPositive (x : F64) : Prop := x.isNaN = true ∨ x.neg = true ∨ x.isZero = true

/-- A value above 0, possibly an infinity. -/
structure IsPositive (x : F64) : Prop where
  notNaN : x.isNaN = false
  neg : x.neg = false
  notZero : x.isZero = false

section
variable {x y : F64}

theorem roundBits_zero (d : Nat) : roundBits 0 d = 0 := by
  simp [roundBits, roundHalfEven]

theorem isZero_round_zero (s : Bool) (d : Nat) : (round s 0 d).isZero = true := by
  rw [isZero, round, absBits_ofParts s (roundBits_lt 0 d), roundBits_zero]
  rfl

theorem isZero_ofParts_zero (s : Bool) : (ofParts s 0).isZero = true := by cases s <;> rfl

@[simp] theorem neg_inf (s : Bool) : (inf s).neg = s := neg_ofParts s infMag_lt

theorem isNaN_round (s : Bool) (n d : Nat) : (round s n d).isNaN = false := by
  rw [isNaN, round, absBits_ofParts s (roundBits_lt n d)]
  exact decide_eq_false (Nat.not_lt.2 (Nat.min_le_right _ _))

/-- The free pattern of a NaN keeps all bits of a quiet NaN set. -/
theorem isNaN_nanOf (op : FloatOp) (x y : F64) : (nanOf op x y).isNaN = true := by
  have hor : 0x7FF8000000000000 ≤ (nanOf op x y).absBits := by
    rw [absBits, nanOf, BitVec.toNat_or, Nat.or_mod_two_pow]
    exact Nat.right_le_or
  refine decide_eq_true (lt_of_lt_of_le ?_ hor)
  decide

theorem isZero_eq_false_of_isInf (h : x.isInf = true) : x.isZero = false := by
  rw [isZero, of_decide_eq_true h]
  rfl

theorem isFinite_of_not_isNaN_isInf (hn : x.isNaN = false) (hi : x.isInf = false) : x.isFinite = true := by
  simp only [isNaN, isInf, isFinite, decide_eq_false_iff_not, decide_eq_true_eq] at *
  omega

/-- A finite product or quotient with a positive value has the sign of the other operand, or is a zero with it. -/
theorem NotPositive.round (hx : NotPositive x) (hnan : x.isNaN = false) (hy : IsPositive y) (c d : Nat) :
    NotPositive (F64.round (x.neg != y.neg) (x.mag * c) d) := by
  rcases hx.resolve_left (by simp [hnan]) with hneg | hz
  · exact .inr (.inl (by rw [neg_round, hneg, hy.neg]; rfl))
  · exact .inr (.inr (by rw [(isZero_iff x).1 hz, Nat.zero_mul]; exact isZero_round_zero _ _))

theorem NotPositive.inf (hx : NotPositive x) (hnan : x.isNaN = false) (hz : x.isZero = false) (hy : IsPositive y) :
    NotPositive (F64.inf (x.neg != y.neg)) := by
  have hneg : x.neg = true := (hx.resolve_left (by simp [hnan])).resolve_right (by simp [hz])
  exact .inr (.inl (by rw [neg_inf, hneg, hy.neg]; rfl))

theorem NotPositive.mul (hx : NotPositive x) (hy : IsPositive y) : NotPositive (F64.mul x y) := by
  unfold F64.mul
  split_ifs with hinvalid hinf
  · exact .inl (isNaN_nanOf _ _ _)
  all_goals
    simp only [Bool.or_eq_true, Bool.and_eq_true, not_or, not_and, Bool.not_eq_true] at hinvalid hinf
    obtain ⟨⟨⟨hnan, -⟩, -⟩, hzeroInf⟩ := hinvalid
  · refine hx.inf hnan ?_ hy
    by_contra hz
    rcases hinf with hxinf | hyinf
    · exact hz (isZero_eq_false_of_isInf hxinf)
    · exact Bool.false_ne_true ((hzeroInf (by simpa using hz)).symm.trans hyinf)
  · exact hx.round hnan hy _ _

theorem NotPositive.div (hx : NotPositive x) (hy : IsPositive y) : NotPositive (F64.div x y) := by
  unfold F64.div
  split_ifs with hinvalid hinf hyinf
  · exact .inl (isNaN_nanOf _ _ _)
  · simp only [Bool.or_eq_true, not_or, Bool.not_eq_true] at hinvalid
    obtain ⟨⟨⟨hnan, -⟩, -⟩, -⟩ := hinvalid
    have hxinf : x.isInf = true := by simpa [hy.notZero] using hinf
    exact hx.inf hnan (isZero_eq_false_of_isInf hxinf) hy
  · exact .inr (.inr (isZero_ofParts_zero _))
  · simp only [Bool.or_eq_true, not_or, Bool.not_eq_true] at hinvalid
    obtain ⟨⟨⟨hnan, -⟩, -⟩, -⟩ := hinvalid
    exact hx.round hnan hy _ _

/-! ### Order, infinities and differences -/

theorem le_iff : le x y = true ↔ x.isNaN = false ∧ y.isNaN = false ∧ x.units ≤ y.units := by
  simp only [le, Bool.and_eq_true, Bool.not_eq_true', decide_eq_true_eq, and_assoc]

theorem lt_iff : lt x y = true ↔ x.isNaN = false ∧ y.isNaN = false ∧ x.units < y.units := by
  simp only [lt, Bool.and_eq_true, Bool.not_eq_true', decide_eq_true_eq, and_assoc]

theorem mag_eq_of_absBits_eq (h : x.absBits = y.absBits) : x.mag = y.mag := by
  unfold mag
  rw [h]

/-- The magnitude that the model gives an infinity. -/
def infUnits : Nat := 2 ^ 2098

theorem infUnits_pos : 0 < infUnits := by
  unfold infUnits
  positivity

theorem mag_of_isInf (h : x.isInf = true) : x.mag = infUnits := by
  have habs : x.absBits = 2046 * 2 ^ 52 + 2 ^ 52 := (of_decide_eq_true h).trans (by decide)
  rw [mag_of_absBits habs (by decide) (.inr le_rfl), ← pow_add, infUnits]

theorem mag_lt_of_isFinite (h : x.isFinite = true) : x.mag < infUnits := by
  have hlt : x.absBits < infMag := of_decide_eq_true h
  obtain ⟨e, k, hk, he, habs, hmag⟩ := exists_significand x
  have he : e ≤ 2045 := by
    unfold infMag at hlt
    omega
  calc x.mag = k * 2 ^ e := hmag
    _ < 2 ^ 53 * 2 ^ e := Nat.mul_lt_mul_of_pos_right hk (Nat.two_pow_pos e)
    _ = 2 ^ (53 + e) := (pow_add 2 53 e).symm
    _ ≤ infUnits := by unfold infUnits; gcongr <;> omega

theorem units_of_isInf (h : x.isInf = true) : x.units = if x.neg then -(infUnits : Int) else infUnits := by
  rw [units, mag_of_isInf h]

theorem units_bounds_of_isFinite (h : x.isFinite = true) : -(infUnits : Int) < x.units ∧ x.units < infUnits := by
  have hmag := mag_lt_of_isFinite h
  rw [← natAbs_units] at hmag
  omega

theorem units_bounds (h : x.isNaN = false) : -(infUnits : Int) ≤ x.units ∧ x.units ≤ infUnits := by
  rcases hi : x.isInf with _ | _
  · obtain ⟨hlo, hhi⟩ := units_bounds_of_isFinite (isFinite_of_not_isNaN_isInf h hi)
    omega
  · rw [units_of_isInf hi]
    split <;> omega

theorem units_negate (x : F64) : x.negate.units = -x.units := by
  rw [units, units, neg_negate, mag_eq_of_absBits_eq (absBits_negate x)]
  cases x.neg <;> simp

theorem isNaN_negate (x : F64) : x.negate.isNaN = x.isNaN := by rw [isNaN, isNaN, absBits_negate]

theorem isZero_round_eq_false (s : Bool) {n : Nat} (hn : 0 < n) : (round s n 1).isZero = false := by
  have hsig : expo (n / 1) * 2 ^ 52 + significand n 1 ≠ 0 := by
    rcases le_significand n Nat.one_pos with he | he
    · have hle : n ≤ significand n 1 := le_roundHalfEven (by positivity) (by rw [he, pow_zero, Nat.mul_one, Nat.mul_one])
      omega
    · omega
  have hinf : infMag ≠ 0 := by decide
  refine decide_eq_false ?_
  rw [round, absBits_ofParts s (roundBits_lt n 1), roundBits_eq]
  omega

/-- What an addition of two values that are no NaN answers, by which of them are infinite. -/
theorem add_cases (hx : x.isNaN = false) (hy : y.isNaN = false) :
    (x.isInf = true ∧ y.isInf = true ∧ x.neg ≠ y.neg ∧ (add x y).isNaN = true)
    ∨ (x.isInf = true ∧ (y.isInf = true → x.neg = y.neg) ∧ add x y = x)
    ∨ (x.isFinite = true ∧ y.isInf = true ∧ add x y = y)
    ∨ (x.isFinite = true ∧ y.isFinite = true) := by
  rcases hxi : x.isInf with _ | _
  · have hxf := isFinite_of_not_isNaN_isInf hx hxi
    rcases hyi : y.isInf with _ | _
    · exact .inr (.inr (.inr ⟨hxf, isFinite_of_not_isNaN_isInf hy hyi⟩))
    · exact .inr (.inr (.inl ⟨hxf, rfl, by simp [add, hx, hy, hxi, hyi]⟩))
  · rcases hyi : y.isInf with _ | _
    · exact .inr (.inl ⟨rfl, by simp, by simp [add, hx, hy, hxi, hyi]⟩)
    · by_cases hneg : x.neg = y.neg
      · exact .inr (.inl ⟨rfl, fun _ => hneg, by simp [add, hx, hy, hxi, hneg]⟩)
      · exact .inl ⟨rfl, rfl, hneg, by simp [add, hx, hy, hxi, hyi, hneg, isNaN_nanOf]⟩

theorem notPositive_add (hx : x.isNaN = false) (hy : y.isNaN = false) (h : x.units + y.units ≤ 0) :
    NotPositive (add x y) := by
  have hpos := infUnits_pos
  rcases add_cases hx hy with ⟨-, -, -, hnan⟩ | ⟨hxi, hsame, hadd⟩ | ⟨hxf, hyi, hadd⟩ | ⟨hxf, hyf⟩
  · exact .inl hnan
  · rw [hadd]
    refine .inr (.inl ?_)
    by_contra hneg
    have hxu := units_of_isInf hxi
    rw [if_neg hneg] at hxu
    rcases hyi : y.isInf with _ | _
    · have := units_bounds_of_isFinite (isFinite_of_not_isNaN_isInf hy hyi)
      omega
    · have hyu := units_of_isInf hyi
      rw [if_neg (hsame hyi ▸ hneg)] at hyu
      omega
  · rw [hadd]
    refine .inr (.inl ?_)
    by_contra hneg
    have hyu := units_of_isInf hyi
    rw [if_neg hneg] at hyu
    have := units_bounds_of_isFinite hxf
    omega
  · rw [add_of_isFinite hxf hyf]
    split
    · exact .inr (.inr (isZero_ofParts_zero _))
    · exact .inr (.inl (by rw [neg_round]; exact decide_eq_true (by omega)))

theorem isPositive_add (hx : x.isNaN = false) (hy : y.isNaN = false) (h : 0 < x.units + y.units) :
    IsPositive (add x y) := by
  have hxb := units_bounds hx
  have hyb := units_bounds hy
  rcases add_cases hx hy with ⟨hxi, hyi, hneg, -⟩ | ⟨hxi, -, hadd⟩ | ⟨hxf, hyi, hadd⟩ | ⟨hxf, hyf⟩
  · have hxu := units_of_isInf hxi
    have hyu := units_of_isInf hyi
    rw [Bool.eq_not_of_ne hneg] at hxu
    cases hyn : y.neg
    all_goals
      simp only [hyn, Bool.not_true, Bool.not_false, Bool.false_eq_true, if_true, if_false] at hxu hyu
      omega
  · rw [hadd]
    refine ⟨hx, ?_, isZero_eq_false_of_isInf hxi⟩
    by_contra hneg
    have hxu := units_of_isInf hxi
    rw [if_pos (by simpa using hneg)] at hxu
    omega
  · rw [hadd]
    refine ⟨hy, ?_, isZero_eq_false_of_isInf hyi⟩
    by_contra hneg
    have hyu := units_of_isInf hyi
    rw [if_pos (by simpa using hneg)] at hyu
    omega
  · rw [add_of_isFinite hxf hyf, if_neg h.ne']
    exact ⟨isNaN_round _ _ _, (neg_round _ _ _).trans (decide_eq_false (by omega)), isZero_round_eq_false _ (by omega)⟩

/-- A difference `x - y` with `x` at or below `y` is at or below 0, or a NaN. -/
theorem notPositive_sub_of_le (h : le x y = true) : NotPositive (sub x y) := by
  obtain ⟨hx, hy, hle⟩ := le_iff.1 h
  exact notPositive_add hx ((isNaN_negate y).trans hy) (by rw [units_negate]; omega)

/-- A difference `x - y` with `x` above `y` is above 0. -/
theorem isPositive_sub_of_lt (h : lt y x = true) : IsPositive (sub x y) := by
  obtain ⟨hy, hx, hlt⟩ := lt_iff.1 h
  exact isPositive_add hx ((isNaN_negate y).trans hy) (by rw [units_negate]; omega)

end

end F64
end Sys2Proof
end

section
/-! PROOFS. A sample through the full scale and back: the product with FS and the quotient by FS, each rounded to
binary64 (spec/40_io_codec.md R105, R109), done twice, lead back to the nearest integer (log entry 7). -/

namespace Sys2Proof.F64

/-- The magnitude `v`, in units, multiplied by the full scale `n` and divided by it, each time rounded. -/
def throughFullScale (n v : Nat) : Nat := roundUnits (roundUnits (v * n) 1) n

theorem throughFullScale_zero (n : Nat) : throughFullScale n 0 = 0 := by
  simp [throughFullScale, roundUnits, significand, roundHalfEven]

/-! ### Samples below 2^50: the relative error is small enough -/

theorem throughFullScale_error {n v : Nat} (hn : 0 < n) (hv : 2 ^ 53 ≤ v) :
    throughFullScale n v * 2 ^ 106 ≤ v * (2 ^ 53 + 1) ^ 2
      ∧ v * (2 ^ 53 - 1) ^ 2 ≤ throughFullScale n v * 2 ^ 106 := by
  have hvn : 2 ^ 53 * n ≤ v * n := Nat.mul_le_mul_right n hv
  obtain ⟨hphi, hplo⟩ := roundUnits_error Nat.one_pos (n := v * n) (by omega)
  obtain ⟨hqhi, hqlo⟩ := roundUnits_error hn (n := roundUnits (v * n) 1) (by omega)
  rw [Nat.mul_one] at hphi hplo
  unfold throughFullScale
  constructor <;> refine Nat.le_of_mul_le_mul_right ?_ hn <;> norm_num at hphi hplo hqhi hqlo ⊢ <;> linarith

/-- Four roundings move a sample below 2^50 by less than half a unit. -/
theorem roundHalfEven_throughFullScale_of_lt {n r : Nat} (hn : 0 < n) (hr : 0 < r) (hr50 : r < 2 ^ 50) :
    roundHalfEven (throughFullScale n (throughFullScale n (r * unitsPerOne))) unitsPerOne = r := by
  have hunit : 2 ^ 54 ≤ unitsPerOne := by
    rw [unitsPerOne_eq]
    gcongr <;> decide
  have hru : unitsPerOne ≤ r * unitsPerOne := Nat.le_mul_of_pos_left _ hr
  have hru50 : r * unitsPerOne ≤ (2 ^ 50 - 1) * unitsPerOne := Nat.mul_le_mul_right _ (by omega)
  obtain ⟨hqhi, hqlo⟩ := throughFullScale_error hn (v := r * unitsPerOne) (by omega)
  obtain ⟨hxhi, hxlo⟩ := throughFullScale_error hn (v := throughFullScale n (r * unitsPerOne)) (by omega)
  refine roundHalfEven_eq_of_close (by omega) ?_ ?_
  · rw [Nat.add_mul, Nat.one_mul, Nat.mul_assoc]
    omega
  · rw [Nat.mul_assoc]
    omega

/-! ### Samples from 2^50 on: exact, apart from ties -/

/-- A rounded quotient with its scale taken out. -/
theorem roundUnits_scaled {a d c : Nat} (t : Nat) (hd : 0 < d) (hlo : 2 ^ (52 + c) * d ≤ a)
    (hhi : a < 2 ^ (53 + c) * d) : roundUnits (a * 2 ^ t) d = roundHalfEven a (d * 2 ^ c) * 2 ^ c * 2 ^ t := by
  have h2t := Nat.two_pow_pos t
  rw [roundUnits_of_range (e := c + t) hd, pow_add, ← Nat.mul_assoc d, roundHalfEven_mul_right _ _ h2t,
    ← Nat.mul_assoc]
  · rw [← Nat.add_assoc, pow_add, Nat.mul_right_comm]
    exact Nat.mul_le_mul_right _ hlo
  · rw [← Nat.add_assoc, pow_add, Nat.mul_right_comm]
    exact Nat.mul_lt_mul_of_pos_right hhi h2t

/-- The product of a sample and the full scale, rounded: a multiple of half its unit in the last place, and at most that
far from the product. -/
theorem roundUnits_mul_fullScale {bits k r : Nat} (t : Nat) (hb : 0 < bits) (hsum : 53 ≤ k + bits) (hlo : 2 ^ k ≤ r)
    (hhi : r < 2 ^ (k + 1)) : ∃ p, roundUnits (r * (2 ^ bits - 1) * 2 ^ t) 1 = p * 2 ^ (k + bits - 53) * 2 ^ t
      ∧ r * (2 ^ bits - 1) ≤ (p + 1) * 2 ^ (k + bits - 53)
      ∧ p * 2 ^ (k + bits - 53) ≤ r * (2 ^ bits - 1) + 2 ^ (k + bits - 53) := by
  have hhalf : 2 ^ (bits - 1) ≤ 2 ^ bits - 1 := by
    have hpow : 2 ^ bits = 2 ^ (bits - 1) * 2 := by rw [← pow_succ, Nat.sub_add_cancel hb]
    have := Nat.two_pow_pos (bits - 1)
    omega
  have hlow : 2 ^ (52 + (k + bits - 53)) ≤ r * (2 ^ bits - 1) := by
    rw [show 52 + (k + bits - 53) = k + (bits - 1) by omega, pow_add]
    exact Nat.mul_le_mul hlo hhalf
  rcases Nat.lt_or_ge (r * (2 ^ bits - 1)) (2 ^ (k + bits)) with h | h
  · have hhigh : r * (2 ^ bits - 1) < 2 ^ (53 + (k + bits - 53)) := by
      rwa [show 53 + (k + bits - 53) = k + bits by omega]
    obtain ⟨hl, hh⟩ := roundHalfEven_bounds (r * (2 ^ bits - 1)) (Nat.two_pow_pos (k + bits - 53))
    refine ⟨_, roundUnits_scaled t Nat.one_pos (by simpa using hlow) (by simpa using hhigh), ?_, ?_⟩
      <;> rw [Nat.one_mul] <;> linarith
  · have hlow' : 2 ^ (52 + (k + bits - 53 + 1)) ≤ r * (2 ^ bits - 1) := by
      rwa [show 52 + (k + bits - 53 + 1) = k + bits by omega]
    have hhigh : r * (2 ^ bits - 1) < 2 ^ (53 + (k + bits - 53 + 1)) := by
      rw [show 53 + (k + bits - 53 + 1) = k + 1 + bits by omega, pow_add]
      exact Nat.mul_lt_mul_of_lt_of_le hhi (Nat.sub_le _ _) (Nat.two_pow_pos bits)
    obtain ⟨hl, hh⟩ := roundHalfEven_bounds (r * (2 ^ bits - 1)) (Nat.two_pow_pos (k + bits - 53 + 1))
    have hprod := roundUnits_scaled t Nat.one_pos (by simpa using hlow') (by simpa using hhigh)
    rw [Nat.one_mul] at hprod
    generalize roundHalfEven (r * (2 ^ bits - 1)) (2 ^ (k + bits - 53 + 1)) = p at hprod hl hh
    refine ⟨p * 2, by rw [hprod, pow_succ]; ring, ?_, ?_⟩ <;> rw [pow_succ] at hl hh <;> linarith

/-- The quotient by the full scale `n` of a product `q` that is off by less than `h`, on the scale `g` where the unit in
the last place of the sample is 1: it rounds to the sample. -/
theorem roundHalfEven_div_fullScale {n r q h g : Nat} (hn : 0 < n) (hg : 0 < g) (hfull : h * g * 2 = n + 1)
    (hlo : r * n + 1 ≤ q + h) (hhi : q + 1 ≤ r * n + h) : roundHalfEven (q * g) n = r * g := by
  have hlo := Nat.mul_le_mul_right g hlo
  have hhi := Nat.mul_le_mul_right g hhi
  refine roundHalfEven_eq_of_close hn ?_ ?_ <;> linarith

/-- The quotient lies in the binade of the sample, which is no power of two. -/
theorem div_fullScale_range {n r q h k : Nat} (hfull : h * 2 ≤ n + 1) (hn : 0 < n) (hklo : 2 ^ k < r)
    (hkhi : r < 2 ^ (k + 1)) (hlo : r * n + 1 ≤ q + h) (hhi : q + 1 ≤ r * n + h) :
    2 ^ k * n ≤ q ∧ q < 2 ^ (k + 1) * n := by
  have hrlo : (2 ^ k + 1) * n ≤ r * n := Nat.mul_le_mul_right n hklo
  have hrhi : (r + 1) * n ≤ 2 ^ (k + 1) * n := Nat.mul_le_mul_right n hkhi
  rw [Nat.add_mul, Nat.one_mul] at hrlo hrhi
  omega

/-- Apart from a multiple of half the unit in the last place, the error of the product is less than that half. -/
theorem roundUnits_mul_fullScale_of_not_dvd {bits k r : Nat} (t : Nat) (hk : k ≤ 53) (hb : 0 < bits)
    (hsum : 53 ≤ k + bits) (hlo : 2 ^ k ≤ r) (hhi : r < 2 ^ (k + 1)) (hdvd : ¬ 2 ^ (k + bits - 53) ∣ r) :
    ∃ q, roundUnits (r * (2 ^ bits - 1) * 2 ^ t) 1 = q * 2 ^ t
      ∧ r * (2 ^ bits - 1) + 1 ≤ q + 2 ^ (k + bits - 53) ∧ q + 1 ≤ r * (2 ^ bits - 1) + 2 ^ (k + bits - 53) := by
  obtain ⟨p, hp, hplo, hphi⟩ := roundUnits_mul_fullScale t hb hsum hlo hhi
  have hprod : ¬ 2 ^ (k + bits - 53) ∣ r * (2 ^ bits - 1) := fun h => by
    have hsplit : r * (2 ^ bits - 1) + r = r * 2 ^ bits := by
      rw [Nat.mul_sub_one, Nat.sub_add_cancel (Nat.le_mul_of_pos_right r (Nat.two_pow_pos bits))]
    have hpow : 2 ^ (k + bits - 53) ∣ r * 2 ^ bits := Nat.dvd_mul_left_of_dvd (Nat.pow_dvd_pow 2 (by omega)) r
    exact hdvd ((Nat.dvd_add_right h).1 (hsplit ▸ hpow))
  have hne : r * (2 ^ bits - 1) ≠ (p + 1) * 2 ^ (k + bits - 53) := fun h => hprod (h ▸ Nat.dvd_mul_left _ _)
  have hne' : p * 2 ^ (k + bits - 53) ≠ r * (2 ^ bits - 1) + 2 ^ (k + bits - 53) := fun h =>
    hprod ((Nat.dvd_add_left (Nat.dvd_refl _)).1 (h ▸ Nat.dvd_mul_left _ _))
  refine ⟨p * 2 ^ (k + bits - 53), hp, ?_, by omega⟩
  rw [Nat.add_mul, Nat.one_mul] at hplo hne
  omega

/-- A sample that is no multiple of half the unit in the last place of its product is exact. -/
theorem throughFullScale_of_not_dvd {bits k r : Nat} (hk : k ≤ 52) (hbits : bits ≤ 53) (hsum : 53 ≤ k + bits)
    (hb : 0 < bits) (hlo : 2 ^ k ≤ r) (hhi : r < 2 ^ (k + 1)) (hdvd : ¬ 2 ^ (k + bits - 53) ∣ r) :
    throughFullScale (2 ^ bits - 1) (r * unitsPerOne) = r * unitsPerOne := by
  have hg := Nat.two_pow_pos (52 - k)
  have hunits : unitsPerOne = 2 ^ (52 - k + (1022 + k)) := by
    rw [unitsPerOne_eq, show 52 - k + (1022 + k) = 1074 by omega]
  have hpow : 2 ^ 1 ≤ 2 ^ bits := Nat.pow_le_pow_right (by decide) hb
  have hn : 0 < 2 ^ bits - 1 := by omega
  have hfull : 2 ^ (k + bits - 53) * 2 ^ (52 - k) * 2 = 2 ^ bits - 1 + 1 := by
    rw [← pow_add, ← pow_succ, show k + bits - 53 + (52 - k) + 1 = bits by omega, Nat.sub_add_cancel (by omega)]
  have hhalf : 2 ^ (k + bits - 53) * 2 ≤ 2 ^ bits - 1 + 1 := by
    rw [← hfull]
    gcongr
    exact Nat.le_mul_of_pos_right _ hg
  have hne : 2 ^ k ≠ r := fun h => hdvd (h ▸ Nat.pow_dvd_pow 2 (by omega))
  obtain ⟨q, hq, hqlo, hqhi⟩ :=
    roundUnits_mul_fullScale_of_not_dvd (52 - k + (1022 + k)) (by omega) hb hsum hlo hhi hdvd
  obtain ⟨hlow, hhigh⟩ := div_fullScale_range hhalf hn (lt_of_le_of_ne hlo hne) hhi hqlo hqhi
  have hscaled := roundUnits_scaled (a := q * 2 ^ (52 - k)) (c := 0) (1022 + k) hn ?_ ?_
  · rw [throughFullScale, hunits, Nat.mul_right_comm, hq, pow_add 2 (52 - k), ← Nat.mul_assoc, ← Nat.mul_assoc,
      hscaled, pow_zero, Nat.mul_one, Nat.mul_one, roundHalfEven_div_fullScale hn hg hfull hqlo hqhi]
  · rw [show 52 + 0 = k + (52 - k) by omega, pow_add, Nat.mul_right_comm]
    exact Nat.mul_le_mul_right _ hlow
  · rw [show 53 + 0 = k + 1 + (52 - k) by omega, pow_add 2 (k + 1), Nat.mul_right_comm (2 ^ (k + 1))]
    exact Nat.mul_lt_mul_of_pos_right hhigh hg

/-- The multiples of half a unit in the last place, ties among them, one by one: `bits` is `51 + b`, and the sample is
below `2^(51 + c)`. -/
theorem roundHalfEven_throughFullScale_ties : ∀ b < 3, ∀ c < 3, ∀ j < 8,
    j * 2 ^ (48 + b + c) < 2 ^ (51 + b) →
    roundHalfEven (throughFullScale (2 ^ (51 + b) - 1) (throughFullScale (2 ^ (51 + b) - 1)
      (j * 2 ^ (48 + b + c) * unitsPerOne))) unitsPerOne = j * 2 ^ (48 + b + c) := by
  decide +kernel

theorem roundHalfEven_throughFullScale_of_dvd {bits k r : Nat} (hb : bits ≤ 53) (hr : r < 2 ^ bits) (hk : 50 ≤ k)
    (hkb : k < bits) (hhi : r < 2 ^ (k + 1)) (hdvd : 2 ^ (k + bits - 53) ∣ r) :
    roundHalfEven (throughFullScale (2 ^ bits - 1) (throughFullScale (2 ^ bits - 1) (r * unitsPerOne))) unitsPerOne
      = r := by
  obtain ⟨j, rfl⟩ := hdvd
  obtain ⟨b, rfl⟩ := Nat.exists_eq_add_of_le (by omega : 51 ≤ bits)
  obtain ⟨c, rfl⟩ := Nat.exists_eq_add_of_le hk
  rw [show 50 + c + (51 + b) - 53 = 48 + b + c by omega, Nat.mul_comm _ j] at hr hhi ⊢
  have hj : j * 2 ^ (48 + b + c) < 2 ^ 3 * 2 ^ (48 + b + c) := by
    rw [← pow_add]
    exact hhi.trans_le (Nat.pow_le_pow_right (by decide) (by omega))
  exact roundHalfEven_throughFullScale_ties b (by omega) c (by omega) j (Nat.lt_of_mul_lt_mul_right hj) hr

/-- Up to 53 bits, a sample sent through the full scale twice is the nearest integer again. -/
theorem roundHalfEven_throughFullScale_twice {bits r : Nat} (hb : bits ≤ 53) (hr : r < 2 ^ bits) :
    roundHalfEven (throughFullScale (2 ^ bits - 1) (throughFullScale (2 ^ bits - 1) (r * unitsPerOne))) unitsPerOne
      = r := by
  rcases Nat.eq_zero_or_pos r with rfl | hpos
  · rw [Nat.zero_mul, throughFullScale_zero, throughFullScale_zero]
    simp [roundHalfEven]
  rcases Nat.lt_or_ge r (2 ^ 50) with hsmall | hlarge
  · exact roundHalfEven_throughFullScale_of_lt (by omega) hpos hsmall
  obtain ⟨k, hlo, hhi⟩ : ∃ k, 2 ^ k ≤ r ∧ r < 2 ^ (k + 1) := ⟨r.log2, Nat.log2_self_le hpos.ne', Nat.lt_log2_self⟩
  have hk50 := (Nat.pow_lt_pow_iff_right (by decide : 1 < 2)).1 (hlarge.trans_lt hhi)
  have hkb := (Nat.pow_lt_pow_iff_right (by decide : 1 < 2)).1 (hlo.trans_lt hr)
  by_cases hdvd : 2 ^ (k + bits - 53) ∣ r
  · exact roundHalfEven_throughFullScale_of_dvd hb hr (by omega) hkb hhi hdvd
  · have hexact := throughFullScale_of_not_dvd (by omega) hb (by omega) (by omega) hlo hhi hdvd
    rw [hexact, hexact, roundHalfEven_mul_self r unitsPerOne_pos]

end Sys2Proof.F64
end

section
/-! PROOFS. The default analog functions (spec/40_io_codec.md R105, R109): the sample 0, the range where the decode is
exact, the round trip, and the clamp. -/

namespace Sys2Proof.Machine

open Sys2Proof F64

/-! ### The raw sample 0 -/

theorem isZero_mul_right {x z : F64} (hx : x.isFinite = true) (hz : z.isZero = true) : (mul x z).isZero = true := by
  rw [mul_of_isFinite hx (isFinite_of_isZero hz), (isZero_iff z).1 hz, Nat.mul_zero]
  exact isZero_round_zero _ _

theorem isZero_div_left {z y : F64} (hz : z.isZero = true) (hy : y.isFinite = true) (hy0 : y.isZero = false) :
    (div z y).isZero = true := by
  rw [div_of_isFinite (isFinite_of_isZero hz) hy hy0, (isZero_iff z).1 hz, Nat.zero_mul]
  exact isZero_round_zero _ _

theorem sampleMax_pos {bits : Nat} (h : 1 ≤ bits) : 0 < sampleMax bits := by
  have : 2 ^ 1 ≤ 2 ^ bits := Nat.pow_le_pow_right (by decide) h
  unfold sampleMax
  omega

/-- The full scale, rounded to binary64 above 53 bits, is a positive finite value. -/
theorem hasMag_fullScale {bits : Nat} (h1 : 1 ≤ bits) (h64 : bits ≤ 64) :
    HasMag (F64.ofNat (sampleMax bits)) (roundUnits (sampleMax bits * unitsPerOne) 1)
      ∧ 0 < roundUnits (sampleMax bits * unitsPerOne) 1 := by
  have hhi : 2 ^ bits ≤ 2 ^ 64 := Nat.pow_le_pow_right (by decide) h64
  have hlt : sampleMax bits < 2 ^ 64 := (Nat.sub_one_lt (Nat.two_pow_pos bits).ne').trans_le hhi
  refine ⟨hasMag_ofNat_roundUnits hlt, unitsPerOne_pos.trans_le ?_⟩
  have hunit : Representable unitsPerOne := by simpa using representable_units (n := 1) (by decide)
  refine hunit.le_roundUnits Nat.one_pos ?_
  rw [Nat.mul_one]
  exact Nat.le_mul_of_pos_left _ (sampleMax_pos h1)

/-- Only -0.0 has a sign bit and the value 0. -/
theorem neg_or_isZero_eq_false {x : F64} (h : x.bits ≠ 0x8000000000000000#64) : x.neg = false ∨ x.isZero = false := by
  by_contra hc
  simp only [not_or, Bool.not_eq_false] at hc
  obtain ⟨hneg, hzero⟩ := hc
  have hself := ofParts_self x
  rw [hneg, of_decide_eq_true hzero] at hself
  exact h (by rw [← hself]; rfl)

/-- Settles O40: the product and the quotient are zeros, and adding a zero to MIN gives MIN. -/
theorem defaultDecodeOfZeroIsTheMinimum : Obligations.DefaultDecodeOfZeroIsTheMinimum := by
  unfold Obligations.DefaultDecodeOfZeroIsTheMinimum
  intro bits r h1 h64 hmin _ hspan hne
  obtain ⟨hfs, hpos⟩ := hasMag_fullScale h1 h64
  have hraw : (F64.ofNat (0#64).toNat).isZero = true := by
    rw [BitVec.toNat_zero, F64.ofNat, Nat.zero_mul]
    exact isZero_round_zero _ _
  have hquot := isZero_div_left (isZero_mul_right hspan hraw) hfs.finite (hfs.isZero_eq_false hpos)
  exact add_zero_right hmin hquot (neg_or_isZero_eq_false hne)

/-! ### Where the decode is not exact -/

/-- With 47 bits the product of FS and 65 needs 54 bits, and its rounding reaches the quotient (log entry 7). -/
theorem linearDecode_not_exact :
    linearDecode 47 65#64 ⟨F64.zero, F64.ofNat (2 ^ 47 - 1)⟩ ≠ F64.ofNat 65 := by
  decide +kernel

/-- Refutes O41: 47 bits, the sample 65, and the range from +0.0 to FS. -/
theorem not_defaultDecodeIsExactOnAFullScaleRange : ¬ Obligations.DefaultDecodeIsExactOnAFullScaleRange := by
  unfold Obligations.DefaultDecodeIsExactOnAFullScaleRange
  intro h
  have hfs : HasMag (F64.ofNat (2 ^ 47 - 1)) ((2 ^ 47 - 1) * unitsPerOne) := hasMag_ofNat (by decide)
  exact linearDecode_not_exact (h 47 65#64 ⟨F64.zero, F64.ofNat (2 ^ 47 - 1)⟩ (by decide) (by decide) (by decide)
    (by decide) rfl (hfs.sub_zero (by decide)))

/-! ### The range from a zero to FS -/

theorem le_of_not_isNaN {x y : F64} (hx : x.isNaN = false) (hy : y.isNaN = false) :
    F64.le x y = decide (x.units ≤ y.units) := by
  rw [F64.le, hx, hy]
  rfl

theorem sampleMax_lt {bits : Nat} (h : bits ≤ 53) : sampleMax bits < 2 ^ 53 := by
  have : 2 ^ bits ≤ 2 ^ 53 := Nat.pow_le_pow_right (by decide) h
  unfold sampleMax
  omega

/-- A value multiplied by the full scale and divided by it has the magnitude `throughFullScale`. -/
theorem hasMag_mul_div {n v a : Nat} {x fs : F64} (hn : 0 < n) (hn53 : n < 2 ^ 53) (hx : HasMag x v)
    (hfs : HasMag fs (n * unitsPerOne)) (hv : v ≤ 2 ^ a) (ha : a < 2000) :
    HasMag (div (mul x fs) fs) (throughFullScale n v) ∧ throughFullScale n v ≤ 2 ^ (a + 53) := by
  have hlt : 2 ^ (a + 53) < 2 ^ 2097 := by
    gcongr
    · decide
    · omega
  have hvn : v * n ≤ 2 ^ (a + 53) := by
    rw [pow_add]
    exact Nat.mul_le_mul hv hn53.le
  have hprod : roundUnits (v * n) 1 ≤ 2 ^ (a + 53) := roundUnits_le_two_pow Nat.one_pos (by rwa [Nat.mul_one])
  have hprodn : roundUnits (v * n) 1 ≤ 2 ^ (a + 53) * n := hprod.trans (Nat.le_mul_of_pos_right _ hn)
  exact ⟨(hx.mul hfs (hvn.trans_lt hlt)).div hfs hn (hprodn.trans_lt (Nat.mul_lt_mul_of_pos_right hlt hn)),
    roundUnits_le_two_pow hn hprodn⟩

section
variable {bits : Nat} {raw : U64} {r : Range}

theorem hasMag_linearDecode (h1 : 1 ≤ bits) (h53 : bits ≤ 53) (hraw : raw.toNat < 2 ^ bits)
    (hmin : r.min.isZero = true) (hmax : r.max = F64.ofNat (sampleMax bits)) :
    HasMag (linearDecode bits raw r) (throughFullScale (sampleMax bits) (raw.toNat * unitsPerOne))
      ∧ throughFullScale (sampleMax bits) (raw.toNat * unitsPerOne) ≤ 2 ^ (53 + 1074 + 53) := by
  have hfs := hasMag_ofNat (sampleMax_lt h53)
  have hraw53 : raw.toNat < 2 ^ 53 := hraw.trans_le (Nat.pow_le_pow_right (by decide) h53)
  have hx := hasMag_ofNat hraw53
  have hv : raw.toNat * unitsPerOne ≤ 2 ^ (53 + 1074) := by
    rw [pow_add, ← unitsPerOne_eq]
    exact Nat.mul_le_mul_right _ hraw53.le
  obtain ⟨hquot, hle⟩ := hasMag_mul_div (sampleMax_pos h1) (sampleMax_lt h53) hx hfs hv (by decide)
  refine ⟨?_, hle⟩
  rw [linearDecode, hmax, hfs.sub_zero hmin, mul_comm_of_isFinite hfs.finite hx.finite, hquot.zero_add hmin]
  exact hquot

/-- The last part of the default encode: clamped to the samples and rounded, 0 for a NaN (40_io_codec.md R109). -/
def quantize (bits : Nat) (x : F64) : U64 :=
  if x.isNaN || F64.le x F64.zero then 0#64
  else if F64.le (F64.ofNat (sampleMax bits)) x then BitVec.ofNat 64 (sampleMax bits)
  else BitVec.ofNat 64 (roundHalfEven x.mag F64.unitsPerOne)

theorem linearEncode_eq (bits : Nat) (v : F64) (r : Range) : linearEncode bits v r =
    if v.isNaN then 0#64
    else quantize bits (div (mul (sub v r.min) (F64.ofNat (sampleMax bits))) (sub r.max r.min)) := rfl

/-- Where the nearest integer is a sample, the clamp changes nothing. -/
theorem quantize_of_hasMag {x : F64} {m : Nat} (h53 : bits ≤ 53) (hx : HasMag x m)
    (hm : roundHalfEven m unitsPerOne ≤ sampleMax bits) :
    quantize bits x = BitVec.ofNat 64 (roundHalfEven m unitsPerOne) := by
  have hfs := hasMag_ofNat (sampleMax_lt h53)
  have hnan := isNaN_of_isFinite hx.finite
  rw [quantize, hnan, Bool.false_or, le_of_not_isNaN hnan (by decide),
    le_of_not_isNaN (isNaN_of_isFinite hfs.finite) hnan, hx.units, hfs.units, hx.mag, hasMag_zero.units]
  simp only [decide_eq_true_eq, Int.ofNat_le]
  split
  · rename_i h0
    obtain rfl := Nat.le_zero.1 h0
    have hzero := roundHalfEven_mul_self 0 unitsPerOne_pos
    rw [Nat.zero_mul] at hzero
    rw [hzero]
  · split
    · rename_i hge
      rw [Nat.le_antisymm hm (le_roundHalfEven unitsPerOne_pos hge)]
    · rfl

theorem linearEncode_of_hasMag {v : F64} {m a k : Nat} (h1 : 1 ≤ bits) (h53 : bits ≤ 53) (hv : HasMag v m)
    (hm : m ≤ 2 ^ a) (ha : a < 2000) (hmin : r.min.isZero = true) (hmax : r.max = F64.ofNat (sampleMax bits))
    (hround : roundHalfEven (throughFullScale (sampleMax bits) m) unitsPerOne = k) (hk : k ≤ sampleMax bits) :
    linearEncode bits v r = BitVec.ofNat 64 k := by
  have hfs := hasMag_ofNat (sampleMax_lt h53)
  obtain ⟨hquot, -⟩ := hasMag_mul_div (sampleMax_pos h1) (sampleMax_lt h53) hv hfs hm ha
  rw [linearEncode_eq, if_neg (by simp [isNaN_of_isFinite hv.finite]), hmax, hv.sub_zero hmin, hfs.sub_zero hmin,
    quantize_of_hasMag h53 hquot (hround.trans_le hk), hround]

end

/-- Settles O43: the magnitude goes through the full scale twice, and ends next to the sample. -/
theorem defaultEncodeInvertsDecodeUpTo53Bits : Obligations.DefaultEncodeInvertsDecodeUpTo53Bits := by
  unfold Obligations.DefaultEncodeInvertsDecodeUpTo53Bits
  intro bits raw r h1 h53 hraw hmin hmax
  obtain ⟨hdecode, hle⟩ := hasMag_linearDecode h1 h53 hraw hmin hmax
  rw [linearEncode_of_hasMag h1 h53 hdecode hle (by decide) hmin hmax (roundHalfEven_throughFullScale_twice h53 hraw)
    (Nat.le_sub_one_of_lt hraw), BitVec.ofNat_toNat, BitVec.setWidth_eq]

theorem throughFullScale_of_mul_lt {n k : Nat} (hn : 0 < n) (hk : k < 2 ^ 53) (h : k * n < 2 ^ 53) :
    throughFullScale n (k * unitsPerOne) = k * unitsPerOne := by
  have hprod := (representable_units h).roundUnits_eq Nat.one_pos
  rw [Nat.mul_one] at hprod
  rw [throughFullScale, Nat.mul_right_comm, hprod, Nat.mul_right_comm, (representable_units hk).roundUnits_eq hn]

/-- Settles O42: up to 26 bits the product with FS is exact, so the decode is; the round trip is O43. -/
theorem defaultCodecRoundTripsUpTo26Bits : Obligations.DefaultCodecRoundTripsUpTo26Bits := by
  unfold Obligations.DefaultCodecRoundTripsUpTo26Bits
  intro bits raw h1 h26 hraw
  have hraw26 : raw.toNat < 2 ^ 26 := hraw.trans_le (Nat.pow_le_pow_right (by decide) h26)
  have hn26 : sampleMax bits < 2 ^ 26 := (Nat.sub_one_lt (Nat.two_pow_pos bits).ne').trans_le
    (Nat.pow_le_pow_right (by decide) h26)
  have hmul : raw.toNat * sampleMax bits < 2 ^ 53 := by
    have := Nat.mul_lt_mul'' hraw26 hn26
    omega
  have hzero : F64.zero.isZero = true := by decide
  obtain ⟨hdecode, -⟩ := hasMag_linearDecode (r := ⟨F64.zero, F64.ofNat (2 ^ bits - 1)⟩) h1 (by omega) hraw
    hzero rfl
  rw [throughFullScale_of_mul_lt (sampleMax_pos h1) (by omega) hmul] at hdecode
  exact ⟨hdecode.eq_round.trans (hasMag_ofNat (by omega)).eq_round.symm,
    defaultEncodeInvertsDecodeUpTo53Bits bits raw _ h1 (by omega) hraw hzero rfl⟩

/-! ### Every encoded sample is valid -/

theorem le_zero_iff (x : F64) : (x.isNaN || F64.le x F64.zero) = true ↔ NotPositive x := by
  have hunits : x.units ≤ 0 ↔ x.neg = true ∨ x.isZero = true := by
    rw [isZero_iff, units]
    cases x.neg <;> simp
  have hzero : F64.zero.isNaN = false := by decide
  rw [Bool.or_eq_true, le_iff, hzero, units_of_isZero (z := F64.zero) (by decide), hunits, NotPositive]
  cases x.isNaN <;> simp

theorem quantize_of_notPositive (bits : Nat) {x : F64} (h : NotPositive x) : quantize bits x = 0#64 :=
  if_pos ((le_zero_iff x).2 h)

/-- Below the full scale, which above 53 bits is rounded up, no binary64 value lies above the largest sample. -/
theorem roundHalfEven_mag_le {bits : Nat} {x : F64} (h1 : 1 ≤ bits) (h64 : bits ≤ 64) (hx : x.isNaN = false)
    (hle : ¬ F64.le (F64.ofNat (sampleMax bits)) x = true) (hpos : ¬ NotPositive x) :
    roundHalfEven x.mag unitsPerOne ≤ sampleMax bits := by
  obtain ⟨hfs, -⟩ := hasMag_fullScale h1 h64
  have hneg : x.neg = false := by
    by_contra h
    exact hpos (.inr (.inl (by simpa using h)))
  refine roundHalfEven_le unitsPerOne_pos ?_
  by_contra hgt
  refine hle (le_iff.2 ⟨isNaN_of_isFinite hfs.finite, hx, ?_⟩)
  rw [hfs.units, units, hneg]
  exact Int.ofNat_le.2 ((representable_mag x).roundUnits_le Nat.one_pos (by omega))

theorem quantize_toNat_le {bits : Nat} (x : F64) (h1 : 1 ≤ bits) (h64 : bits ≤ 64) :
    (quantize bits x).toNat ≤ sampleMax bits := by
  unfold quantize
  split
  · exact Nat.zero_le _
  · rename_i hpos
    split
    · rw [BitVec.toNat_ofNat]
      exact Nat.mod_le _ _
    · rename_i hle
      have hnan : x.isNaN = false := (Bool.or_eq_false_iff.1 (Bool.not_eq_true _ ▸ hpos)).1
      have hround := roundHalfEven_mag_le h1 h64 hnan hle fun h => hpos ((le_zero_iff x).2 h)
      rw [BitVec.toNat_ofNat]
      exact (Nat.mod_le _ _).trans hround

/-- Settles O39: the clamp gives a sample; at or below MIN the difference, the product and the quotient are at or
below 0, or a NaN. -/
theorem defaultEncodeGivesAValidSample : Obligations.DefaultEncodeGivesAValidSample := by
  unfold Obligations.DefaultEncodeGivesAValidSample
  intro bits v r h1 h64
  rw [linearEncode_eq]
  refine ⟨?_, fun hnan => if_pos hnan, fun hrange hmin => ?_⟩
  · split
    · exact Nat.zero_le _
    · exact quantize_toNat_le _ h1 h64
  · obtain ⟨hfs, hfspos⟩ := hasMag_fullScale h1 h64
    have hscale : IsPositive (F64.ofNat (sampleMax bits)) :=
      ⟨isNaN_of_isFinite hfs.finite, hfs.neg, hfs.isZero_eq_false hfspos⟩
    split
    · rfl
    · exact quantize_of_notPositive bits
        (((notPositive_sub_of_le hmin).mul hscale).div (isPositive_sub_of_lt hrange))

end Sys2Proof.Machine
end

section
/-! PROOFS. The phases of the I/O codec and the host port: what phase 1 samples (spec/40_io_codec.md R100 to R104), who
writes the forcing registers and PREV (R107, R111), the change-delta mask (R110), and the force operations, queries and
snapshot (R112 to R114). -/

namespace Sys2Proof.Machine

open Sys2Proof

/-! ### Decode phase -/

/-- The significant bits of a raw analog word, which is below 2^64. -/
theorem sampleBits_rawWord (bits : Nat) (m : Memory) (i : Nat) :
    sampleBits bits (rawWord m i) = BitVec.ofNat 64 (m.readBE (8 * i) 8 % 2 ^ bits) := by
  have hword : m.readBE (8 * i) 8 < 2 ^ 64 := Memory.readBE_lt m (8 * i) 8
  apply BitVec.eq_of_toNat_eq
  rw [sampleBits_toNat, rawWord, BitVec.toNat_ofNat, BitVec.toNat_ofNat, Nat.mod_eq_of_lt hword,
    Nat.mod_eq_of_lt ((Nat.mod_le _ _).trans_lt hword)]

/-- Settles O35: slot by slot by the laws of the decode phase; the word of an analog input by `sampleBits_rawWord`. -/
theorem decodePhaseSamplesTheInputs : Obligations.DecodePhaseSamplesTheInputs := by
  unfold Obligations.DecodePhaseSamplesTheInputs
  intro s hsized hphase
  obtain ⟨⟨hdi, -, hai, -⟩, -, -⟩ := hsized
  refine ⟨stepDecode s, by simp only [step, hphase], fun i hi => ?_, Bank.doAt_clearPulses s.bank,
    Bank.mAt_clearPulses s.bank, fun i hi => ?_, rfl, rfl, rfl, rfl, rfl⟩
  · exact decodePhase_diAt s i (hi.trans_eq hdi.symm)
  · refine (decodePhase_aiAt s i (hi.trans_eq hai.symm)).trans ?_
    rw [decodedReal, sampleBits_rawWord, RealForce.apply]

/-! ### Who writes the forcing registers and PREV -/

/-- The forcing registers and PREV are as before. -/
def SameForceAndPrev (s t : State) : Prop := t.force = s.force ∧ t.prev = s.prev

theorem ExecResult.sameForceAndPrev {s t : State} (h : ExecResult s t) : SameForceAndPrev s t := by
  cases h <;> exact ⟨rfl, rfl⟩

theorem runWord_sameForceAndPrev {w : Word} {s t : State} (h : runWord w s = .next t) : SameForceAndPrev s t := by
  rcases runWord_cases h with ⟨-, rfl⟩ | ⟨-, e, -, rfl⟩ | ⟨-, i, -, hexec⟩
  · exact ⟨rfl, rfl⟩
  · simp [SameForceAndPrev]
  · simpa [SameForceAndPrev] using (execResult_of_exec hexec).sameForceAndPrev

theorem beginScan_sameForceAndPrev (s : State) : SameForceAndPrev s (beginScan s) := by
  rcases beginScan_cases s with ⟨-, h⟩ | ⟨x, rest, -, ⟨-, h⟩ | ⟨-, h⟩⟩ <;> simp [SameForceAndPrev, h]

theorem stepLoop_sameForceAndPrev (s : State) : SameForceAndPrev s (stepLoop s) := by
  rcases stepLoop_cases s with ⟨-, -, h⟩ | h <;> rw [h] <;> exact ⟨rfl, rfl⟩

theorem tickPhase_sameForceAndPrev {s t : State} (h : tickPhase s = .next t) : SameForceAndPrev s t := by
  rcases tickPhase_cases s with ⟨-, ht⟩ | ⟨-, -, ht⟩ | ⟨-, -, ht⟩ <;> cases ht.symm.trans h <;> exact ⟨rfl, rfl⟩

/-- What a host operation leaves as it was: everything but the controller and the forcing registers. -/
structure HostFrame (s t : State) : Prop where
  bank : t.bank = s.bank
  prev : t.prev = s.prev
  eng : t.eng = s.eng
  cfg : t.cfg = s.cfg
  prog : t.prog = s.prog
  rawDI : t.rawDI = s.rawDI
  rawAI : t.rawAI = s.rawAI
  rawDO : t.rawDO = s.rawDO
  rawAO : t.rawAO = s.rawAO
  phase : t.phase = s.phase

theorem applyOp_frame (op : HostOp) (s : State) : HostFrame s (applyOp op s).1 := by
  rcases applyOp_cases op s with h | h | h | h | ⟨f, h⟩ <;> rw [h] <;> constructor <;> simp

theorem hostPhase_prev (s : State) : (hostPhase s).prev = s.prev :=
  applyOps_keeps (P := fun u => u.prev = s.prev) (fun op u hu => (applyOp_frame op u).prev.trans hu) s.hostOps s rfl

/-- Only phase 5 can write the forcing registers, and only phase 4 writes PREV. -/
theorem step_force_prev {s t : State} (h : step s = .next t) :
    (s.phase ≠ .host → t.force = s.force) ∧ (s.phase ≠ .delta → t.prev = s.prev) := by
  have both : SameForceAndPrev s t → (s.phase ≠ .host → t.force = s.force) ∧ (s.phase ≠ .delta → t.prev = s.prev) :=
    fun ⟨hforce, hprev⟩ => ⟨fun _ => hforce, fun _ => hprev⟩
  rcases step_cases h with ⟨-, -, rfl⟩ | ⟨-, rfl⟩ | ⟨-, rfl⟩ | ⟨-, -, rfl⟩ | ⟨-, w, -, hrun⟩ | ⟨-, u, hu, rfl⟩
    | ⟨-, rfl⟩ | ⟨hphase, rfl⟩ | ⟨hphase, rfl⟩
  · exact both (beginScan_sameForceAndPrev s)
  · exact both ⟨rfl, rfl⟩
  · exact both (stepLoop_sameForceAndPrev s)
  · exact both ⟨rfl, rfl⟩
  · exact both (runWord_sameForceAndPrev hrun)
  · have hsame : SameForceAndPrev s u := tickPhase_sameForceAndPrev hu
    exact both hsame
  · exact both ⟨rfl, rfl⟩
  · exact ⟨fun _ => rfl, fun hne => absurd hphase hne⟩
  · exact ⟨fun hne => absurd hphase hne, fun _ => hostPhase_prev s⟩

/-- The host operations that are no FORCE and no UNFORCE. -/
def LeavesForcing (op : HostOp) : Prop :=
  op = .start ∨ op = .stop ∨ op = .shutdown ∨ op = .readSnapshot ∨ (∃ n, op = .readCsr n)
    ∨ (∃ i, op = .isInputForced i ∨ op = .isOutputForced i ∨ op = .isAIForced i ∨ op = .isAOForced i)

theorem applyOp_force {op : HostOp} (hop : LeavesForcing op) (s : State) : (applyOp op s).1.force = s.force := by
  rcases hop with rfl | rfl | rfl | rfl | ⟨n, rfl⟩ | ⟨i, rfl | rfl | rfl | rfl⟩
  · exact State.start_force s
  · exact State.stop_force s
  · rfl
  · rfl
  · rw [applyOp_readCsr_fst]
  all_goals simp only [applyOp, queryOp_fst]

theorem applyOps_force {ops : List HostOp} (hops : ∀ op ∈ ops, LeavesForcing op) (s : State) :
    (applyOps ops s).1.force = s.force := by
  induction ops generalizing s with
  | nil => rfl
  | cons op ops ih =>
    obtain ⟨hop, hrest⟩ := List.forall_mem_cons.1 hops
    exact (ih hrest _).trans (applyOp_force hop s)

/-- Settles O36: only the host phase can write the forcing registers, and of its operations only FORCE and UNFORCE do. -/
theorem forcingPersists : Obligations.ForcingPersists := by
  unfold Obligations.ForcingPersists
  intro s t h
  obtain ⟨hforce, -⟩ := step_force_prev h
  refine ⟨hforce, fun hops => ?_⟩
  by_cases hphase : s.phase = .host
  · simp only [step, hphase] at h
    cases h
    exact applyOps_force hops s
  · exact hforce hphase

/-! ### Change-delta phase -/

theorem anySlot_eq_true {n : Nat} {differs : Nat → Bool} :
    anySlot n differs = true ↔ ∃ i, i < n ∧ differs i = true := by
  simp [anySlot, List.any_eq_true]

theorem inputsChanged_iff (c : Cfg) (b p : Bank) : inputsChanged c b p = true ↔
    (∃ i, i < c.nDI ∧ (b.diAt i).i ≠ (p.diAt i).i) ∨ (∃ i, i < c.ai.length ∧ (b.aiAt i).bits ≠ (p.aiAt i).bits) := by
  simp only [inputsChanged, Bool.or_eq_true, anySlot_eq_true, bne_iff_ne, ne_eq, F64.bits_inj]

theorem outputsChanged_iff (c : Cfg) (b p : Bank) : outputsChanged c b p = true ↔
    (∃ i, i < c.nDO ∧ (b.doAt i).q ≠ (p.doAt i).q) ∨ (∃ i, i < c.ao.length ∧ (b.aoAt i).bits ≠ (p.aoAt i).bits) := by
  simp only [outputsChanged, Bool.or_eq_true, anySlot_eq_true, bne_iff_ne, ne_eq, F64.bits_inj]

theorem memoryChanged_iff (c : Cfg) (b p : Bank) : memoryChanged c b p = true ↔
    (∃ i, i < c.m.length ∧ (b.mAt i).v ≠ (p.mAt i).v) ∨ (∃ i, i < c.mr.length ∧ (b.mrAt i).bits ≠ (p.mrAt i).bits) := by
  simp only [memoryChanged, Bool.or_eq_true, anySlot_eq_true, bne_iff_ne, ne_eq, F64.bits_inj]

theorem timersChanged_iff (c : Cfg) (b p : Bank) : timersChanged c b p = true ↔
    (∃ i, i < c.t.length ∧ ((b.tAt i).v ≠ (p.tAt i).v ∨ (b.tAt i).q ≠ (p.tAt i).q ∨ (b.tAt i).start ≠ (p.tAt i).start))
      ∨ (∃ i, i < c.b.length ∧ (b.bAt i).q ≠ (p.bAt i).q) := by
  simp only [timersChanged, Bool.or_eq_true, anySlot_eq_true, bne_iff_ne, ne_eq, or_assoc]

theorem statusChanged_iff (k : Controller) (p : Prev) :
    statusChanged k p = true ↔ k.state ≠ p.state ∨ k.err ≠ p.err := by
  simp only [statusChanged, Bool.or_eq_true, decide_eq_true_eq]

/-- Bit by bit, the mask of the five categories (40_io_codec.md R110). -/
theorem deltaMask_bits (s : State) :
    (deltaMask s).getLsbD 0 = inputsChanged s.cfg s.bank s.prev.bank
    ∧ (deltaMask s).getLsbD 1 = outputsChanged s.cfg s.bank s.prev.bank
    ∧ (deltaMask s).getLsbD 2 = memoryChanged s.cfg s.bank s.prev.bank
    ∧ (deltaMask s).getLsbD 3 = timersChanged s.cfg s.bank s.prev.bank
    ∧ (deltaMask s).getLsbD 4 = statusChanged s.ctl s.prev := by
  simp only [deltaMask, BitVec.getLsbD_append]
  simp

/-- Settles O38: each bit of the mask is its category's comparison; PREV in the other phases by `step_force_prev`. -/
theorem deltaPhaseComparesAndReplacesThePreviousScan : Obligations.DeltaPhaseComparesAndReplacesThePreviousScan := by
  unfold Obligations.DeltaPhaseComparesAndReplacesThePreviousScan
  refine ⟨fun s hphase => ?_, fun s t h => (step_force_prev h).2⟩
  obtain ⟨hin, hout, hmem, htim, hstat⟩ := deltaMask_bits s
  have hdelta : (stepDelta s).ctl.delta = deltaMask s := rfl
  refine ⟨stepDelta s, by simp only [step, hphase], ?_, ?_, ?_, ?_, ?_, rfl⟩
  · rw [hdelta, hin, inputsChanged_iff]
  · rw [hdelta, hout, outputsChanged_iff]
  · rw [hdelta, hmem, memoryChanged_iff]
  · rw [hdelta, htim, timersChanged_iff]
  · rw [hdelta, hstat, statusChanged_iff]

/-! ### Force operations and queries -/

theorem forceOp_of_lt {n i : Nat} (h : i < n) (f : Forcing) (s : State) : forceOp n i f s = (s.setForce f, .ok) :=
  if_pos h

theorem forceOp_of_le {n i : Nat} (h : n ≤ i) (f : Forcing) (s : State) : forceOp n i f s = (s, .badIndex) :=
  if_neg (Nat.not_lt.2 h)

theorem queryOp_of_lt {n i : Nat} (h : i < n) (b : Bool) (s : State) : queryOp n i b s = (s, .bit b) :=
  if_pos h

theorem queryOp_of_le {n i : Nat} (h : n ≤ i) (b : Bool) (s : State) : queryOp n i b s = (s, .badIndex) :=
  if_neg (Nat.not_lt.2 h)

theorem forceOp_cfg (n i : Nat) (f : Forcing) (s : State) : (forceOp n i f s).1.cfg = s.cfg := by
  rcases forceOp_cases n i f s with ⟨-, h⟩ | ⟨-, h⟩ <;> simp [h]

/-- Of two force operations on one channel the second decides, if it does not depend on what the first wrote. -/
theorem forceOp_forceOp (n i : Nat) {f : Forcing} (g : Forcing → Forcing) {s : State} (hg : g f = g s.force) :
    forceOp n i (g (forceOp n i f s).1.force) (forceOp n i f s).1 = forceOp n i (g s.force) s := by
  rcases Nat.lt_or_ge i n with h | h
  · simp only [forceOp_of_lt h, State.setForce_force, hg]
    rfl
  · simp only [forceOp_of_le h]

theorem bitForceAt_set {l : List BitForce} {i : Nat} (h : i < l.length) (f : BitForce) :
    bitForceAt (l.set i f) i = f := by
  rw [bitForceAt, getD_set, if_pos ⟨rfl, h⟩]

theorem realForceAt_set {l : List RealForce} {i : Nat} (h : i < l.length) (f : RealForce) :
    realForceAt (l.set i f) i = f := by
  rw [realForceAt, getD_set, if_pos ⟨rfl, h⟩]

theorem set_getD_self {α : Type} (l : List α) (i : Nat) (d : α) : l.set i (l.getD i d) = l := by
  rcases Nat.lt_or_ge i l.length with h | h
  · rw [List.getD_eq_getElem l d h, List.set_getElem_self]
  · rw [List.set_eq_of_length_le h]

theorem set_bitForceAt_self {l : List BitForce} {i : Nat} {f : BitForce} (h : bitForceAt l i = f) : l.set i f = l :=
  h ▸ set_getD_self l i default

theorem set_realForceAt_self {l : List RealForce} {i : Nat} {f : RealForce} (h : realForceAt l i = f) :
    l.set i f = l :=
  h ▸ set_getD_self l i default

section
variable {s : State} {f : Forcing} {i : Nat}

theorem isInputForced_setForce {v : Bool} (hi : i < s.cfg.nDI) {m : Bool} (hf : bitForceAt f.di i = ⟨m, v⟩) :
    (applyOp (.isInputForced i) (s.setForce f)).2 = .bit m :=
  (congrArg Prod.snd (queryOp_of_lt hi _ _)).trans (by rw [State.setForce_force, hf])

theorem isOutputForced_setForce {v : Bool} (hi : i < s.cfg.nDO) {m : Bool} (hf : bitForceAt f.dout i = ⟨m, v⟩) :
    (applyOp (.isOutputForced i) (s.setForce f)).2 = .bit m :=
  (congrArg Prod.snd (queryOp_of_lt hi _ _)).trans (by rw [State.setForce_force, hf])

theorem isAIForced_setForce {v : F64} (hi : i < s.cfg.ai.length) {m : Bool} (hf : realForceAt f.ai i = ⟨m, v⟩) :
    (applyOp (.isAIForced i) (s.setForce f)).2 = .bit m :=
  (congrArg Prod.snd (queryOp_of_lt hi _ _)).trans (by rw [State.setForce_force, hf])

theorem isAOForced_setForce {v : F64} (hi : i < s.cfg.ao.length) {m : Bool} (hf : realForceAt f.ao i = ⟨m, v⟩) :
    (applyOp (.isAOForced i) (s.setForce f)).2 = .bit m :=
  (congrArg Prod.snd (queryOp_of_lt hi _ _)).trans (by rw [State.setForce_force, hf])

end

/-- A FORCE makes the query of its channel answer 1, an UNFORCE makes it answer 0. -/
theorem query_after_force {s : State} (hs : SizedForcing s.cfg s.force) (i : Nat) (b : Bool) (r : F64) :
    (i < s.cfg.nDI → (applyOp (.isInputForced i) (applyOp (.forceDI i b) s).1).2 = .bit true
      ∧ (applyOp (.isInputForced i) (applyOp (.unforceDI i) s).1).2 = .bit false)
    ∧ (i < s.cfg.nDO → (applyOp (.isOutputForced i) (applyOp (.forceDO i b) s).1).2 = .bit true
      ∧ (applyOp (.isOutputForced i) (applyOp (.unforceDO i) s).1).2 = .bit false)
    ∧ (i < s.cfg.ai.length → (applyOp (.isAIForced i) (applyOp (.forceAI i r) s).1).2 = .bit true
      ∧ (applyOp (.isAIForced i) (applyOp (.unforceAI i) s).1).2 = .bit false)
    ∧ (i < s.cfg.ao.length → (applyOp (.isAOForced i) (applyOp (.forceAO i r) s).1).2 = .bit true
      ∧ (applyOp (.isAOForced i) (applyOp (.unforceAO i) s).1).2 = .bit false) := by
  obtain ⟨hdi, hdo, hai, hao⟩ := hs
  refine ⟨fun h => ?_, fun h => ?_, fun h => ?_, fun h => ?_⟩ <;> simp only [applyOp, forceOp_of_lt h]
  · exact ⟨isInputForced_setForce h (bitForceAt_set (h.trans_eq hdi.symm) _),
      isInputForced_setForce h (bitForceAt_set (h.trans_eq hdi.symm) _)⟩
  · exact ⟨isOutputForced_setForce h (bitForceAt_set (h.trans_eq hdo.symm) _),
      isOutputForced_setForce h (bitForceAt_set (h.trans_eq hdo.symm) _)⟩
  · exact ⟨isAIForced_setForce h (realForceAt_set (h.trans_eq hai.symm) _),
      isAIForced_setForce h (realForceAt_set (h.trans_eq hai.symm) _)⟩
  · exact ⟨isAOForced_setForce h (realForceAt_set (h.trans_eq hao.symm) _),
      isAOForced_setForce h (realForceAt_set (h.trans_eq hao.symm) _)⟩

/-- An UNFORCE of a channel that is unforced and holds the value 0 changes nothing (40_io_codec.md R114). -/
theorem unforce_of_unforced (s : State) (i : Nat) :
    (i < s.cfg.nDI → bitForceAt s.force.di i = ⟨false, false⟩ → applyOp (.unforceDI i) s = (s, .ok))
    ∧ (i < s.cfg.nDO → bitForceAt s.force.dout i = ⟨false, false⟩ → applyOp (.unforceDO i) s = (s, .ok))
    ∧ (i < s.cfg.ai.length → realForceAt s.force.ai i = ⟨false, F64.zero⟩ → applyOp (.unforceAI i) s = (s, .ok))
    ∧ (i < s.cfg.ao.length → realForceAt s.force.ao i = ⟨false, F64.zero⟩ → applyOp (.unforceAO i) s = (s, .ok)) := by
  refine ⟨fun h hf => ?_, fun h hf => ?_, fun h hf => ?_, fun h hf => ?_⟩ <;> simp only [applyOp, forceOp_of_lt h]
  · rw [set_bitForceAt_self hf]; rfl
  · rw [set_bitForceAt_self hf]; rfl
  · rw [set_realForceAt_self hf]; rfl
  · rw [set_realForceAt_self hf]; rfl

/-- A second FORCE of a channel replaces the value of the first. -/
theorem force_after_force (s : State) (i : Nat) (b : Bool) (r : F64) (b' : Bool) (r' : F64) :
    applyOp (.forceDI i b) (applyOp (.forceDI i b') s).1 = applyOp (.forceDI i b) s
    ∧ applyOp (.forceDO i b) (applyOp (.forceDO i b') s).1 = applyOp (.forceDO i b) s
    ∧ applyOp (.forceAI i r) (applyOp (.forceAI i r') s).1 = applyOp (.forceAI i r) s
    ∧ applyOp (.forceAO i r) (applyOp (.forceAO i r') s).1 = applyOp (.forceAO i r) s := by
  simp only [applyOp, forceOp_cfg]
  exact ⟨forceOp_forceOp _ i (fun f => { f with di := f.di.set i ⟨true, b⟩ }) (by simp),
    forceOp_forceOp _ i (fun f => { f with dout := f.dout.set i ⟨true, b⟩ }) (by simp),
    forceOp_forceOp _ i (fun f => { f with ai := f.ai.set i ⟨true, r⟩ }) (by simp),
    forceOp_forceOp _ i (fun f => { f with ao := f.ao.set i ⟨true, r⟩ }) (by simp)⟩

/-- Settles O49: each operation is `forceOp` or `queryOp` of its channel, in range or out of range. -/
theorem forceOperationsWriteOneChannel : Obligations.ForceOperationsWriteOneChannel := by
  unfold Obligations.ForceOperationsWriteOneChannel
  intro i b r s
  obtain ⟨hunDI, hunDO, hunAI, hunAO⟩ := unforce_of_unforced s i
  exact ⟨fun h => ⟨forceOp_of_lt h _ s, forceOp_of_lt h _ s⟩, fun h => ⟨forceOp_of_le h _ s, forceOp_of_le h _ s⟩,
    fun h => ⟨forceOp_of_lt h _ s, forceOp_of_lt h _ s⟩, fun h => ⟨forceOp_of_le h _ s, forceOp_of_le h _ s⟩,
    fun h => ⟨forceOp_of_lt h _ s, forceOp_of_lt h _ s⟩, fun h => ⟨forceOp_of_le h _ s, forceOp_of_le h _ s⟩,
    fun h => ⟨forceOp_of_lt h _ s, forceOp_of_lt h _ s⟩, fun h => ⟨forceOp_of_le h _ s, forceOp_of_le h _ s⟩,
    fun h => queryOp_of_lt h _ s, fun h => queryOp_of_le h _ s, fun h => queryOp_of_lt h _ s,
    fun h => queryOp_of_le h _ s, fun h => queryOp_of_lt h _ s, fun h => queryOp_of_le h _ s,
    fun h => queryOp_of_lt h _ s, fun h => queryOp_of_le h _ s,
    fun hs => query_after_force hs i b r, hunDI, hunDO, hunAI, hunAO, force_after_force s i b r⟩

/-! ### What no host operation writes -/

theorem snapshot_mFlags_getD {s : State} {i : Nat} (h : i < s.cfg.m.length) :
    (snapshot s).mFlags.getD i (false, false) = (memRo s.cfg i, memDown s.cfg i) := by
  rw [snapshot, getD_map _ _ _ (default : MemCfg), if_pos h]
  rfl

theorem snapshot_mrRo_getD {s : State} {i : Nat} (h : i < s.cfg.mr.length) :
    (snapshot s).mrRo.getD i false = realMemRo s.cfg i := by
  rw [snapshot, getD_map _ _ _ (default : RealMemCfg), if_pos h]
  rfl

/-- Settles O53: the frame of a host operation, and the fields of the snapshot. -/
theorem hostCannotWriteTheBank : Obligations.HostCannotWriteTheBank := by
  unfold Obligations.HostCannotWriteTheBank
  intro op s
  obtain ⟨hbank, hprev, heng, hcfg, hprog, hDI, hAI, hDO, hAO, hphase⟩ := applyOp_frame op s
  exact ⟨⟨hbank, hprev, heng, hcfg, hprog, hDI, hAI, hDO, hAO, hphase⟩,
    snapshot s, rfl, rfl, rfl, rfl, rfl, rfl, rfl, fun i => snapshot_mFlags_getD, fun i => snapshot_mrRo_getD,
    rfl, rfl, rfl, rfl, deltaWord_toNat s.ctl⟩

end Sys2Proof.Machine
end

section
/-! PROOFS. The LOAD family (spec/41_load.md R121 to R133): the truth of a tagged value, the nine LD as one load of the
named slot, and a LD after a ST of the same slot. -/

namespace Sys2Proof

/-! ### The absolute value -/

namespace F64

@[simp] theorem absBits_abs (x : F64) : x.abs.absBits = x.absBits := absBits_ofParts false (absBits_lt x)

theorem isNaN_abs (x : F64) : x.abs.isNaN = x.isNaN := by rw [isNaN, isNaN, absBits_abs]

theorem units_abs (x : F64) : x.abs.units = x.mag := by
  have hneg : x.abs.neg = false := neg_ofParts false (absBits_lt x)
  simp [units, hneg, mag_eq_of_absBits_eq (absBits_abs x)]

end F64

namespace Machine

/-! ### Truth -/

theorem truth_int (eps : F64) (v : U64) : truth eps (.int v) = decide (v.toNat ≠ 0) := by
  rw [Bool.eq_iff_iff]
  simp [truth, BitVec.toNat_eq]

theorem truth_real (eps r : F64) :
    truth eps (.real r) = (!eps.isNaN && !r.isNaN && decide (eps.units < (r.mag : Int))) := by
  rw [truth, F64.lt, F64.isNaN_abs, F64.units_abs]

/-- Settles O26: the comparison of `truth` is that of REAL_EPSILON with the magnitude of the real. -/
theorem truthOfATaggedValue : Obligations.TruthOfATaggedValue := by
  unfold Obligations.TruthOfATaggedValue
  intro eps heps
  refine ⟨fun b => rfl, truth_int eps, fun r hr => ?_, fun r hr => ?_⟩ <;> simp [truth_real, heps, hr]

/-! ### LD of a kind -/

theorem exec_ld (k : Kind) (i : Index) (s : State) :
    exec (.ld k i) s = .next (loadOp k i (encode (.ld k i)) s) := by
  cases k <;> rfl

theorem exec_ld_of_lt {k : Kind} {i : Index} {s : State} (h : i.toNat < count s.cfg k) :
    exec (.ld k i) s = .next { s with
      eng := { s.eng with acc := .val (readOp s.bank k i.toNat), pc := s.eng.pc + 1#25 } } := by
  rw [exec_ld, loadOp, if_pos h]
  rfl

theorem exec_ld_of_le {k : Kind} {i : Index} {s : State} (h : count s.cfg k ≤ i.toNat) :
    exec (.ld k i) s = .next (s.raise .badIndex (encode (.ld k i))) := by
  rw [exec_ld, loadOp, if_neg h.not_gt]

/-- Settles O15: each LD is the load of its kind, in range or out of range. -/
theorem loadsPutTheSlotIntoTheAccumulator : Obligations.LoadsPutTheSlotIntoTheAccumulator := by
  unfold Obligations.LoadsPutTheSlotIntoTheAccumulator
  refine ⟨fun i s => ?_, fun w hop hkind => ?_⟩
  · exact ⟨exec_ld_of_lt (k := .di), exec_ld_of_le (k := .di), exec_ld_of_lt (k := .re), exec_ld_of_le (k := .re),
      exec_ld_of_lt (k := .fe), exec_ld_of_le (k := .fe), exec_ld_of_lt (k := .dout), exec_ld_of_le (k := .dout),
      exec_ld_of_lt (k := .ai), exec_ld_of_le (k := .ai), exec_ld_of_lt (k := .ao), exec_ld_of_le (k := .ao),
      exec_ld_of_lt (k := .m), exec_ld_of_le (k := .m), exec_ld_of_lt (k := .mr), exec_ld_of_le (k := .mr),
      exec_ld_of_lt (k := .t), exec_ld_of_le (k := .t)⟩
  · rw [← opField_toNat] at hop
    rw [← kindField_toNat] at hkind
    exact decodeWord_of_reserved_kind_number (by omega) hkind

/-! ### ST and then LD of the same slot -/

theorem storeOp_of_val {k : Kind} {i : Index} {s : State} {v : Value} (h : i.toNat < count s.cfg k)
    (hacc : s.eng.acc = .val v) (hro : readOnly s.cfg k i.toNat = false) (wr : Value → Bank → Bank) (w : Word) :
    storeOp k i wr w s = (s.setBank (wr v s.bank)).advance := by
  simp [storeOp, h, hacc, hro]

/-- A ST that converts with `conv`, then LD: the converted value, which is the stored one where it has the tag `tag` of
the destination. -/
theorem store_then_load {st : Instr} {k : Kind} {i : Index} {wr : Value → Bank → Bank} {w : Word} {s : State}
    {v : Value} {α : Type} (conv : Value → Value) (tag : α → Value) (hst : exec st s = .next (storeOp k i wr w s))
    (h : i.toNat < count s.cfg k) (hacc : s.eng.acc = .val v) (hro : readOnly s.cfg k i.toNat = false)
    (hread : readOp (wr v s.bank) k i.toNat = conv v) (htag : ∀ x, conv (tag x) = tag x) :
    ∃ t u, exec st s = .next t ∧ exec (.ld k i) t = .next u ∧ u.eng.acc = .val (conv v)
      ∧ ∀ x, v = tag x → u.eng.acc = .val v := by
  rw [storeOp_of_val h hacc hro] at hst
  refine ⟨_, _, hst, exec_ld_of_lt h, congrArg Acc.val hread, ?_⟩
  rintro x rfl
  exact congrArg Acc.val (hread.trans (htag x))

/-- Settles O30: the slot that a ST wrote reads as the converted value. -/
theorem storeThenLoadReturnsTheValue : Obligations.StoreThenLoadReturnsTheValue := by
  unfold Obligations.StoreThenLoadReturnsTheValue
  rintro i s v ⟨-, hdout, -, hao, hm, hmr, -, -⟩ hacc
  refine ⟨fun h => ?_, fun h => ?_, fun h hro => ?_, fun h hro => ?_⟩
  · refine store_then_load (k := .dout) (fun v => .bool (truth s.cfg.realEpsilon v)) .bool rfl h hacc rfl ?_
      fun _ => rfl
    simp [readOp, Bank.doAt_modDo, hdout, h]
  · refine store_then_load (k := .ao) (fun v => .real (toReal v)) .real rfl h hacc rfl ?_ fun _ => rfl
    simp [readOp, Bank.aoAt_setAo, hao, h]
  · refine store_then_load (k := .m) (fun v => .int (toU64 v)) .int rfl h hacc hro ?_ fun _ => rfl
    simp [readOp, Bank.mAt_modM, hm, h]
  · refine store_then_load (k := .mr) (fun v => .real (toReal v)) .real rfl h hacc hro ?_ fun _ => rfl
    simp [readOp, Bank.mrAt_setMr, hmr, h]

end Machine
end Sys2Proof
end

section
/-! PROOFS. The boolean combinators (spec/42_combine.md R140 to R145): what the instructions of a combinator do and how
they are encoded, once for the four functions, and chains of them after a LD. -/

namespace Sys2Proof.Machine

open Sys2Proof

/-! ### The shared operation, case by case -/

section
variable {f : Bool → Bool → Bool} {k : Kind} {i : Index} {s : State}

theorem combineOp_of_le (h : count s.cfg k ≤ i.toNat) (w : Word) : combineOp f k i w s = s.raise .badIndex w := by
  rw [combineOp, if_neg h.not_gt]

theorem combineOp_of_empty (h : i.toNat < count s.cfg k) (hacc : s.eng.acc = .empty) (w : Word) :
    combineOp f k i w s = s.raise .badProg w := by
  simp [combineOp, h, hacc]

theorem combineOp_of_val {a : Value} (h : i.toNat < count s.cfg k) (hacc : s.eng.acc = .val a) (w : Word) :
    combineOp f k i w s = (s.setAcc (.val (.bool (f (truth s.cfg.realEpsilon a)
      (truth s.cfg.realEpsilon (readOp s.bank k i.toNat)))))).advance := by
  simp [combineOp, h, hacc]

end

/-! ### The instructions of a combinator -/

/-- The instructions `ins` have the opcode `o` and combine ACC with their slot by `f` (42_combine.md R140). -/
structure Combinator (o : Opcode) (f : Bool → Bool → Bool) (ins : Kind → Index → Instr) : Prop where
  instrOf_eq : ∀ k i, instrOf o k i = some (ins k i)
  exec_eq : ∀ k i s, exec (ins k i) s = .next (combineOp f k i (encode (ins k i)) s)

theorem combinator_and : Combinator .and andFn Instr.and where
  instrOf_eq _ _ := rfl
  exec_eq k _ _ := by cases k <;> rfl

theorem combinator_or : Combinator .or orFn Instr.or where
  instrOf_eq _ _ := rfl
  exec_eq k _ _ := by cases k <;> rfl

theorem combinator_andn : Combinator .andn andnFn Instr.andn where
  instrOf_eq _ _ := rfl
  exec_eq k _ _ := by cases k <;> rfl

theorem combinator_orn : Combinator .orn ornFn Instr.orn where
  instrOf_eq _ _ := rfl
  exec_eq k _ _ := by cases k <;> rfl

theorem fields_encode_of_instrOf {o : Opcode} {k : Kind} {x : Index} {i : Instr} (h : instrOf o k x = some i) :
    opField (encode i) = o.number ∧ kindOf (kindField (encode i)) = some k ∧ indexField (encode i) = x := by
  obtain ⟨rfl, rfl, rfl⟩ := fields_of_instrOf h
  obtain ⟨hop, hkind, hindex⟩ := fields_encode i
  exact ⟨hop, kindOf_eq_some_iff.2 hkind, hindex⟩

namespace Combinator

variable {o : Opcode} {f : Bool → Bool → Bool} {ins : Kind → Index → Instr}

theorem exec_of_val (hc : Combinator o f ins) {k : Kind} {i : Index} {s : State} {a : Value}
    (h : i.toNat < count s.cfg k) (hacc : s.eng.acc = .val a) :
    exec (ins k i) s = .next { s with eng := { s.eng with
      acc := .val (.bool (f (truth s.cfg.realEpsilon a) (truth s.cfg.realEpsilon (readOp s.bank k i.toNat))))
      pc := s.eng.pc + 1#25 } } := by
  rw [hc.exec_eq, combineOp_of_val h hacc]
  rfl

/-- What R140 says of a combinator, for any of the four functions: the value, both errors and the encoding. -/
theorem combines_with_the_slot (hc : Combinator o f ins) (ho : o.number.toNat ≤ 7) :
    (∀ (k : Kind) (i : Index) (s : State),
      (∀ a, i.toNat < count s.cfg k → s.eng.acc = .val a →
        exec (ins k i) s = .next { s with eng := { s.eng with
          acc := .val (.bool (f (truth s.cfg.realEpsilon a) (truth s.cfg.realEpsilon (readOp s.bank k i.toNat))))
          pc := s.eng.pc + 1#25 } })
      ∧ (count s.cfg k ≤ i.toNat → exec (ins k i) s = .next (s.raise .badIndex (encode (ins k i))))
      ∧ (i.toNat < count s.cfg k → s.eng.acc = .empty →
        exec (ins k i) s = .next (s.raise .badProg (encode (ins k i))))
      ∧ opField (encode (ins k i)) = o.number ∧ kindOf (kindField (encode (ins k i))) = some k
      ∧ indexField (encode (ins k i)) = i)
    ∧ ∀ w : Word, w.toNat / 2 ^ 28 = o.number.toNat → 9 ≤ w.toNat / 2 ^ 24 % 16 →
        decodeWord w = .error .badOperand := by
  refine ⟨fun k i s => ⟨fun a => hc.exec_of_val, fun h => ?_, fun h hacc => ?_,
    fields_encode_of_instrOf (hc.instrOf_eq k i)⟩, fun w hop hkind => ?_⟩
  · rw [hc.exec_eq, combineOp_of_le h]
  · rw [hc.exec_eq, combineOp_of_empty h hacc]
  · rw [← opField_toNat] at hop
    rw [← kindField_toNat] at hkind
    exact decodeWord_of_reserved_kind_number (hop.trans_le ho) hkind

end Combinator

/-- Settles O16: AND is the combinator with `andFn`. -/
theorem andCombinesTheAccumulatorWithTheSlot : Obligations.AndCombinesTheAccumulatorWithTheSlot := by
  unfold Obligations.AndCombinesTheAccumulatorWithTheSlot
  exact combinator_and.combines_with_the_slot (by decide)

/-- Settles O17: OR is the combinator with `orFn`. -/
theorem orCombinesTheAccumulatorWithTheSlot : Obligations.OrCombinesTheAccumulatorWithTheSlot := by
  unfold Obligations.OrCombinesTheAccumulatorWithTheSlot
  exact combinator_or.combines_with_the_slot (by decide)

/-- Settles O18: ANDN is the combinator with `andnFn`. -/
theorem andnCombinesTheAccumulatorWithTheSlot : Obligations.AndnCombinesTheAccumulatorWithTheSlot := by
  unfold Obligations.AndnCombinesTheAccumulatorWithTheSlot
  exact combinator_andn.combines_with_the_slot (by decide)

/-- Settles O19: ORN is the combinator with `ornFn`. -/
theorem ornCombinesTheAccumulatorWithTheSlot : Obligations.OrnCombinesTheAccumulatorWithTheSlot := by
  unfold Obligations.OrnCombinesTheAccumulatorWithTheSlot
  exact combinator_orn.combines_with_the_slot (by decide)

/-! ### Chains after a LD -/

/-- A LD and then a combinator of the same slot leave `f` of the slot's truth with itself. -/
theorem Combinator.after_ld {o : Opcode} {f : Bool → Bool → Bool} {ins : Kind → Index → Instr}
    (hc : Combinator o f ins) {k : Kind} {i : Index} {s : State} (h : i.toNat < count s.cfg k) {b : Bool}
    (hf : ∀ a, f a a = b) :
    ∃ t u, exec (.ld k i) s = .next t ∧ exec (ins k i) t = .next u ∧ u.eng.acc = .val (.bool b) :=
  ⟨_, _, exec_ld_of_lt h, hc.exec_of_val h rfl, congrArg (fun b => Acc.val (.bool b)) (hf _)⟩

/-- Settles O20: each instruction of the chain finds the value of the one before in ACC, and a BOOL is its own truth. -/
theorem chainEvaluatesLeftToRight : Obligations.ChainEvaluatesLeftToRight := by
  unfold Obligations.ChainEvaluatesLeftToRight
  intro ka kb kc ia ib ic s ha hb hc
  exact ⟨⟨_, _, _, exec_ld_of_lt ha, combinator_or.exec_of_val hb rfl, combinator_and.exec_of_val hc rfl, rfl⟩,
    combinator_andn.after_ld ha Bool.and_not_self, combinator_orn.after_ld ha Bool.or_not_self⟩

end Sys2Proof.Machine
end

section
/-! PROOFS. A rounded binary64 value is the nearest one, ties to even (spec/43_store.md R150), and the u64 of a real
is its integer part, saturated (R151). -/

namespace Sys2Proof

/-! ### The nearest integer is nearest to the quotient -/

/-- A quotient half way between two integers is rounded to the even one. -/
theorem roundHalfEven_even_of_tie {n d : Nat} (hd : 0 < d)
    (htie : 2 * n = (2 * roundHalfEven n d + 1) * d ∨ 2 * roundHalfEven n d * d = 2 * n + d) :
    roundHalfEven n d % 2 = 0 := by
  have hdiv := Nat.div_add_mod n d
  have hmod := Nat.mod_lt n hd
  rw [Nat.mul_comm] at hdiv
  unfold roundHalfEven at htie ⊢
  dsimp only at htie ⊢
  split_ifs at htie ⊢ <;> (ring_nf at hdiv htie ⊢; omega)

/-- No integer is nearer to the quotient, and where another one is as near, the rounded one is even. -/
theorem roundHalfEven_nearest (n k : Nat) {d : Nat} (hd : 0 < d) :
    (((roundHalfEven n d * d : Nat) : Int) - n).natAbs ≤ (((k * d : Nat) : Int) - n).natAbs
    ∧ ((((roundHalfEven n d * d : Nat) : Int) - n).natAbs = (((k * d : Nat) : Int) - n).natAbs →
      k ≠ roundHalfEven n d → roundHalfEven n d % 2 = 0) := by
  obtain ⟨hlo, hhi⟩ := roundHalfEven_bounds n hd
  have htie := roundHalfEven_even_of_tie (n := n) hd
  generalize roundHalfEven n d = r at *
  rw [Nat.add_mul, Nat.mul_assoc] at *
  rcases Nat.lt_trichotomy k r with hlt | rfl | hlt
  · have hstep : k * d + d ≤ r * d := by rw [← Nat.succ_mul]; exact Nat.mul_le_mul_right d hlt
    exact ⟨by omega, fun heq _ => htie (by omega)⟩
  · exact ⟨le_rfl, fun _ hne => absurd rfl hne⟩
  · have hstep : r * d + d ≤ k * d := by rw [← Nat.succ_mul]; exact Nat.mul_le_mul_right d hlt
    exact ⟨by omega, fun heq _ => htie (by omega)⟩

namespace F64

/-! ### The nearest binary64 value -/

/-- A representable magnitude is on the grid of the binade of `n`, or a point of that grid lies between it and `n`. -/
theorem Representable.exists_grid_point {m : Nat} (hm : Representable m) (n : Nat) :
    ∃ k, k * 2 ^ expo n = m ∨ (m < k * 2 ^ expo n ∧ k * 2 ^ expo n ≤ n) := by
  rcases Nat.lt_or_ge m (2 ^ (52 + expo n)) with hlt | hge
  · rcases expo_eq_zero_or n with he | he
    · exact ⟨m, .inl (by rw [he, pow_zero, Nat.mul_one])⟩
    · rw [pow_add] at hlt he
      exact ⟨2 ^ 52, .inr ⟨hlt, he⟩⟩
  · obtain ⟨k, hk⟩ := hm.two_pow_dvd hge
    exact ⟨k, .inl (by rw [hk, Nat.mul_comm])⟩

/-- No representable magnitude is nearer to `n` than the rounded one, and where another one is as near, the
significand is even. -/
theorem Representable.roundUnits_nearest {m : Nat} (hm : Representable m) (n : Nat) :
    ((roundUnits n 1 : Int) - n).natAbs ≤ ((m : Int) - n).natAbs
    ∧ (((roundUnits n 1 : Int) - n).natAbs = ((m : Int) - n).natAbs → m ≠ roundUnits n 1 →
      significand n 1 % 2 = 0) := by
  rw [roundUnits, significand, Nat.div_one, Nat.one_mul]
  obtain ⟨k, hgrid⟩ := hm.exists_grid_point n
  obtain ⟨hle, htie⟩ := roundHalfEven_nearest n k (Nat.two_pow_pos (expo n))
  rcases hgrid with rfl | ⟨hlt, hkn⟩
  · exact ⟨hle, fun heq hne => htie heq fun hk => hne (by rw [hk])⟩
  · have hfar : (((k * 2 ^ expo n : Nat) : Int) - n).natAbs < ((m : Int) - n).natAbs := by omega
    exact ⟨by omega, fun heq => by omega⟩

theorem representable_zero : Representable 0 := ⟨0, 0, by decide, rfl⟩

/-- A rounded value with an even significand has the lowest bit 0, for the exponent adds a multiple of 2^52. -/
theorem lowBit_round_of_even {n : Nat} (hn : n < 2 ^ 2097) (heven : significand n 1 % 2 = 0) :
    (F64.round false n 1).bits.getLsbD 0 = false := by
  obtain ⟨hbits, -⟩ := roundBits_of_lt Nat.one_pos (n := n) (by rwa [Nat.mul_one])
  have hpattern : (F64.round false n 1).bits.toNat % 2 = 0 := by
    rw [F64.round, bits_ofParts_toNat false (roundBits_lt n 1), hbits]
    simp only [Bool.false_eq_true, if_false]
    omega
  simp [BitVec.getLsbD, Nat.testBit_zero, hpattern]

/-- No finite value is nearer to `n` units than the rounded one, and where another one is as near, the lowest bit of the
rounded one is 0. -/
theorem round_nearest {n : Nat} (hn : n < 2 ^ 2097) {y : F64} (hy : y.isFinite = true) :
    ((F64.round false n 1).units - n).natAbs ≤ (y.units - n).natAbs
    ∧ (((F64.round false n 1).units - n).natAbs = (y.units - n).natAbs → y ≠ F64.round false n 1 →
      (F64.round false n 1).bits.getLsbD 0 = false) := by
  have hround : HasMag (F64.round false n 1) (roundUnits n 1) := hasMag_round Nat.one_pos (by rwa [Nat.mul_one])
  rw [hround.units]
  rcases hneg : y.neg with _ | _
  · have hmag : HasMag y y.mag := ⟨hneg, hy, rfl⟩
    obtain ⟨hle, htie⟩ := (representable_mag y).roundUnits_nearest n
    rw [hmag.units]
    refine ⟨hle, fun heq hne => lowBit_round_of_even hn (htie heq fun hmageq => hne ?_)⟩
    rw [hround.eq_round, ← hmageq, ← hmag.eq_round]
  · have hunits : y.units = -(y.mag : Int) := by rw [F64.units, if_pos hneg]
    obtain ⟨hle, htie⟩ := representable_zero.roundUnits_nearest n
    refine ⟨by omega, fun heq _ => lowBit_round_of_even hn ?_⟩
    rcases Nat.eq_zero_or_pos (roundUnits n 1) with hzero | hpos
    · have hsig : significand n 1 = 0 := by simpa [roundUnits] using hzero
      rw [hsig]
    · exact htie (by omega) (by omega)

/-! ### Whole numbers in units -/

theorem natCast_unitsPerOne : (unitsPerOne : Int) = 2 ^ 1074 := by
  rw [unitsPerOne_eq, Nat.cast_pow, Nat.cast_ofNat]

theorem mul_unitsPerOne_lt {n : Nat} (hn : n < 2 ^ 64) : n * unitsPerOne < 2 ^ 2097 := by
  calc n * unitsPerOne < 2 ^ 64 * unitsPerOne := Nat.mul_lt_mul_of_pos_right hn unitsPerOne_pos
    _ = 2 ^ (64 + 1074) := by rw [unitsPerOne_eq, ← pow_add]
    _ ≤ 2 ^ 2097 := by gcongr <;> decide

/-! ### The u64 of a real -/

theorem notPositive_iff {r : F64} (hnan : r.isNaN = false) : NotPositive r ↔ r.units ≤ 0 := by
  have hzero : F64.zero.isNaN = false := by decide
  rw [← Machine.le_zero_iff, hnan, Bool.false_or, le_iff, hasMag_zero.units]
  simp [hnan, hzero]

theorem units_eq_mag_of_pos {r : F64} (h : 0 < r.units) : r.units = r.mag := by
  unfold units at h ⊢
  split_ifs at h ⊢ <;> omega

theorem toU64_of_notPositive {r : F64} (h : NotPositive r) : toU64 r = 0#64 :=
  if_pos ((Machine.le_zero_iff r).2 h)

theorem toU64_of_pos {r : F64} (hnan : r.isNaN = false) (hpos : 0 < r.units) :
    toU64 r = if 2 ^ 64 * unitsPerOne ≤ r.mag then BitVec.ofNat 64 (2 ^ 64 - 1)
      else BitVec.ofNat 64 (r.mag / unitsPerOne) :=
  if_neg fun h => hpos.not_ge ((notPositive_iff hnan).1 ((Machine.le_zero_iff r).1 h))

theorem toU64_saturates {r : F64} (hnan : r.isNaN = false) (h : 2 ^ 64 * unitsPerOne ≤ r.units) :
    (toU64 r).toNat = 2 ^ 64 - 1 := by
  have hunit := unitsPerOne_pos
  have hpos : 0 < r.units := by omega
  rw [units_eq_mag_of_pos hpos] at h
  rw [toU64_of_pos hnan hpos, if_pos (by omega)]
  rfl

theorem toU64_truncates {r : F64} (hnan : r.isNaN = false) (hpos : 0 < r.units) (h : r.units < 2 ^ 64 * unitsPerOne) :
    (toU64 r).toNat * unitsPerOne ≤ r.mag ∧ r.mag < ((toU64 r).toNat + 1) * unitsPerOne := by
  rw [units_eq_mag_of_pos hpos] at h
  have hlt : r.mag < 2 ^ 64 * unitsPerOne := by omega
  rw [toU64_of_pos hnan hpos, if_neg hlt.not_ge, BitVec.toNat_ofNat,
    Nat.mod_eq_of_lt ((Nat.div_lt_iff_lt_mul unitsPerOne_pos).2 hlt)]
  exact ⟨Nat.div_mul_le_self _ _, (Nat.div_lt_iff_lt_mul unitsPerOne_pos).1 (Nat.lt_succ_self _)⟩

end F64
end Sys2Proof
end

section
/-! PROOFS. The STORE family (spec/43_store.md R150 to R156): what a ST does in each case of R156, and the conversions
to binary64 and to u64. -/

namespace Sys2Proof.Machine

open Sys2Proof

/-! ### ST in each case of R156 -/

section
variable {st : Instr} {k : Kind} {i : Index} {wr : Value → Bank → Bank} {w : Word} {s : State} {v : Value}

theorem exec_store_of_le (hst : exec st s = .next (storeOp k i wr w s)) (h : count s.cfg k ≤ i.toNat) :
    exec st s = .next (s.raise .badIndex w) := by
  rw [hst, storeOp, if_neg h.not_gt]

theorem exec_store_of_empty (hst : exec st s = .next (storeOp k i wr w s)) (h : i.toNat < count s.cfg k)
    (hacc : s.eng.acc = .empty) : exec st s = .next (s.raise .badProg w) := by
  simp [hst, storeOp, h, hacc]

theorem exec_store_of_readOnly (hst : exec st s = .next (storeOp k i wr w s)) (h : i.toNat < count s.cfg k)
    (hacc : s.eng.acc = .val v) (hro : readOnly s.cfg k i.toNat = true) :
    exec st s = .next (s.raise .badOperand w) := by
  simp [hst, storeOp, h, hacc, hro]

theorem exec_store_of_val {b : Bank} (hst : exec st s = .next (storeOp k i wr w s)) (h : i.toNat < count s.cfg k)
    (hacc : s.eng.acc = .val v) (hro : readOnly s.cfg k i.toNat = false) (hb : wr v s.bank = b) :
    exec st s = .next { s with bank := b, eng := { s.eng with pc := s.eng.pc + 1#25 } } := by
  rw [hst, storeOp_of_val h hacc hro, hb]
  rfl

end

/-! ### A changed slot as a set one -/

/-- Changing a slot sets it to the changed value; out of range neither does anything, whatever `d` is. -/
theorem modify_eq_set_getD {α : Type} (l : List α) (i : Nat) (f : α → α) (d : α) :
    l.modify i f = l.set i (f (l.getD i d)) := by
  rcases Nat.lt_or_ge i l.length with h | h
  · rw [List.modify_eq_set_get f h, List.getD_eq_getElem l d h]
    rfl
  · rw [List.set_eq_of_length_le h, List.modify_eq_self h]

theorem Bank.modDo_eq_set (b : Bank) (i : Nat) (f : DoSlot → DoSlot) :
    b.modDo i f = { b with dout := b.dout.set i (f (b.doAt i)) } := by
  rw [modDo, modify_eq_set_getD, doAt]

theorem Bank.modM_eq_set (b : Bank) (i : Nat) (f : MemSlot → MemSlot) :
    b.modM i f = { b with m := b.m.set i (f (b.mAt i)) } := by
  rw [modM, modify_eq_set_getD, mAt]

/-! ### The four instructions -/

/-- Settles O21: no output is read-only, so ST DO and ST AO have the three other cases of R156. -/
theorem storesToOutputsWriteTheSlot : Obligations.StoresToOutputsWriteTheSlot := by
  unfold Obligations.StoresToOutputsWriteTheSlot
  intro i s
  exact ⟨fun v h hacc => exec_store_of_val (k := .dout) rfl h hacc rfl (Bank.modDo_eq_set _ _ _),
    exec_store_of_le (k := .dout) rfl, exec_store_of_empty (k := .dout) rfl,
    fun v h hacc => exec_store_of_val (k := .ao) rfl h hacc rfl rfl,
    exec_store_of_le (k := .ao) rfl, exec_store_of_empty (k := .ao) rfl⟩

/-- Settles O22: ST M and ST MR have all four cases of R156. -/
theorem storesToMemoryWriteTheSlot : Obligations.StoresToMemoryWriteTheSlot := by
  unfold Obligations.StoresToMemoryWriteTheSlot
  intro i s
  exact ⟨fun v h hacc hro => exec_store_of_val (k := .m) rfl h hacc hro (Bank.modM_eq_set _ _ _),
    exec_store_of_le (k := .m) rfl, exec_store_of_empty (k := .m) rfl,
    fun v => exec_store_of_readOnly (k := .m) rfl,
    fun v h hacc hro => exec_store_of_val (k := .mr) rfl h hacc hro rfl,
    exec_store_of_le (k := .mr) rfl, exec_store_of_empty (k := .mr) rfl,
    fun v => exec_store_of_readOnly (k := .mr) rfl⟩

/-! ### The conversions -/

/-- Settles O27: the three ranges of `F64.toU64` for a real that is no NaN, in units of 2^-1074. -/
theorem toU64SaturatesAndTruncates : Obligations.ToU64SaturatesAndTruncates := by
  unfold Obligations.ToU64SaturatesAndTruncates
  rw [← F64.natCast_unitsPerOne]
  refine ⟨fun b => rfl, fun v => rfl, fun r => ⟨fun hnan => F64.toU64_of_notPositive (.inl hnan),
    fun hnan hle => F64.toU64_of_notPositive ((F64.notPositive_iff hnan).2 hle), F64.toU64_saturates,
    fun hnan hpos hlt => ?_⟩⟩
  obtain ⟨hlo, hhi⟩ := F64.toU64_truncates hnan hpos hlt
  rw [F64.units_eq_mag_of_pos hpos]
  exact ⟨by exact_mod_cast hlo, by exact_mod_cast hhi⟩

/-- Settles O28: a natural number below 2^53 is a binary64 magnitude. -/
theorem toRealIsExactBelowTwoToThe53 : Obligations.ToRealIsExactBelowTwoToThe53 := by
  unfold Obligations.ToRealIsExactBelowTwoToThe53
  refine ⟨fun b => rfl, fun r => rfl, fun v hv => ?_⟩
  rw [toReal, ← F64.natCast_unitsPerOne, ← Nat.cast_mul]
  exact ⟨(F64.hasMag_ofNat hv).finite, (F64.hasMag_ofNat hv).units⟩

/-- Settles O29: an integer of 64 bits is far below the overflow, so its rounded magnitude is the nearest. -/
theorem toRealIsTheNearestValueTiesToEven : Obligations.ToRealIsTheNearestValueTiesToEven := by
  unfold Obligations.ToRealIsTheNearestValueTiesToEven
  refine ⟨fun b => rfl, fun r => rfl, fun v => ?_⟩
  have hsmall : v.toNat * F64.unitsPerOne < 2 ^ 2097 := F64.mul_unitsPerOne_lt v.isLt
  rw [toReal, ← F64.natCast_unitsPerOne, ← Nat.cast_mul]
  exact ⟨(F64.hasMag_ofNat_roundUnits v.isLt).finite, fun y hy => F64.round_nearest hsmall hy⟩

end Sys2Proof.Machine
end

section
/-! PROOFS. SET and RESET (spec/44_set_reset.md R160 to R170): what the ten instructions do in each case of R160, said
once for the write of any constant. -/

namespace Sys2Proof.Machine

open Sys2Proof

/-! ### The shared operation, case by case -/

section
variable {k : Kind} {i : Index} {s : State} {v : Value} {wr : Bank → Bank} {w : Word}

theorem setOp_of_le (h : count s.cfg k ≤ i.toNat) : setOp k i wr w s = s.raise .badIndex w := by
  rw [setOp, if_neg h.not_gt]

theorem setOp_of_empty (h : i.toNat < count s.cfg k) (hacc : s.eng.acc = .empty) :
    setOp k i wr w s = s.raise .badProg w := by
  simp [setOp, h, hacc]

/-- With a false gate neither the read-only check nor the write is made. -/
theorem setOp_of_gate_false (h : i.toNat < count s.cfg k) (hacc : s.eng.acc = .val v)
    (hgate : truth s.cfg.realEpsilon v = false) : setOp k i wr w s = s.advance := by
  simp [setOp, h, hacc, hgate]

theorem setOp_of_readOnly (h : i.toNat < count s.cfg k) (hacc : s.eng.acc = .val v)
    (hgate : truth s.cfg.realEpsilon v = true) (hro : readOnly s.cfg k i.toNat = true) :
    setOp k i wr w s = s.raise .badOperand w := by
  simp [setOp, h, hacc, hgate, hro]

theorem setOp_of_gate_true (h : i.toNat < count s.cfg k) (hacc : s.eng.acc = .val v)
    (hgate : truth s.cfg.realEpsilon v = true) (hro : readOnly s.cfg k i.toNat = false) :
    setOp k i wr w s = (s.setBank (wr s.bank)).advance := by
  simp [setOp, h, hacc, hgate, hro]

end

/-! ### The instructions of R160 -/

/-- `ins` does at the slot `i` of kind `k` what R160 says, where the write of its constant leaves the bank `b`. -/
structure WritesWhenTrue (ins : Instr) (k : Kind) (i : Index) (s : State) (b : Bank) : Prop where
  writes : ∀ v, i.toNat < count s.cfg k → s.eng.acc = .val v → truth s.cfg.realEpsilon v = true →
    readOnly s.cfg k i.toNat = false →
    exec ins s = .next { s with bank := b, eng := { s.eng with pc := s.eng.pc + 1#25 } }
  skips : ∀ v, i.toNat < count s.cfg k → s.eng.acc = .val v → truth s.cfg.realEpsilon v = false →
    exec ins s = .next { s with eng := { s.eng with pc := s.eng.pc + 1#25 } }
  outOfRange : count s.cfg k ≤ i.toNat → exec ins s = .next (s.raise .badIndex (encode ins))
  empty : i.toNat < count s.cfg k → s.eng.acc = .empty → exec ins s = .next (s.raise .badProg (encode ins))
  protects : ∀ v, i.toNat < count s.cfg k → s.eng.acc = .val v → truth s.cfg.realEpsilon v = true →
    readOnly s.cfg k i.toNat = true → exec ins s = .next (s.raise .badOperand (encode ins))

section
variable {ins : Instr} {k : Kind} {i : Index} {s : State} {wr : Bank → Bank} {b : Bank}

theorem writesWhenTrue_of_setOp (hexec : exec ins s = .next (setOp k i wr (encode ins) s)) (hb : wr s.bank = b) :
    WritesWhenTrue ins k i s b where
  writes v h hacc hgate hro := by
    rw [hexec, setOp_of_gate_true h hacc hgate hro, hb]
    rfl
  skips v h hacc hgate := by
    rw [hexec, setOp_of_gate_false h hacc hgate]
    rfl
  outOfRange h := by rw [hexec, setOp_of_le h]
  empty h hacc := by rw [hexec, setOp_of_empty h hacc]
  protects v h hacc hgate hro := by rw [hexec, setOp_of_readOnly h hacc hgate hro]

/-- A kind that is never read-only needs no check before the write. -/
theorem WritesWhenTrue.writes_of_writable (hins : WritesWhenTrue ins k i s b)
    (hro : readOnly s.cfg k i.toNat = false) (v : Value) (h : i.toNat < count s.cfg k) (hacc : s.eng.acc = .val v)
    (hgate : truth s.cfg.realEpsilon v = true) :
    exec ins s = .next { s with bank := b, eng := { s.eng with pc := s.eng.pc + 1#25 } } :=
  hins.writes v h hacc hgate hro

end

theorem Bank.modT_eq_set (b : Bank) (i : Nat) (f : TimerSlot → TimerSlot) :
    b.modT i f = { b with t := b.t.set i (f (b.tAt i)) } := by
  rw [modT, modify_eq_set_getD, tAt]

/-- Settles O23: each SET is the operation of R160; only M and MR can be read-only. -/
theorem setWritesItsConstantWhenTheGateIsTrue : Obligations.SetWritesItsConstantWhenTheGateIsTrue := by
  unfold Obligations.SetWritesItsConstantWhenTheGateIsTrue
  intro i s
  have hdo := writesWhenTrue_of_setOp (ins := .setDo i) (s := s) rfl (Bank.modDo_eq_set _ _ _)
  have hao := writesWhenTrue_of_setOp (ins := .setAo i) (s := s) rfl rfl
  have hm := writesWhenTrue_of_setOp (ins := .setM i) (s := s) rfl (Bank.modM_eq_set _ _ _)
  have hmr := writesWhenTrue_of_setOp (ins := .setMr i) (s := s) rfl rfl
  have ht := writesWhenTrue_of_setOp (ins := .setT i) (s := s) rfl (Bank.modT_eq_set _ _ _)
  exact ⟨hdo.writes_of_writable rfl, hdo.skips, hdo.outOfRange, hdo.empty,
    hao.writes_of_writable rfl, hao.skips, hao.outOfRange, hao.empty,
    hm.writes, hm.skips, hm.outOfRange, hm.empty, hm.protects,
    hmr.writes, hmr.skips, hmr.outOfRange, hmr.empty, hmr.protects,
    ht.writes_of_writable rfl, ht.skips, ht.outOfRange, ht.empty⟩

/-- Settles O24: each RST is the operation of R160; only M and MR can be read-only. -/
theorem resetWritesItsConstantWhenTheGateIsTrue : Obligations.ResetWritesItsConstantWhenTheGateIsTrue := by
  unfold Obligations.ResetWritesItsConstantWhenTheGateIsTrue
  intro i s
  have hdo := writesWhenTrue_of_setOp (ins := .rstDo i) (s := s) rfl (Bank.modDo_eq_set _ _ _)
  have hao := writesWhenTrue_of_setOp (ins := .rstAo i) (s := s) rfl rfl
  have hm := writesWhenTrue_of_setOp (ins := .rstM i) (s := s) rfl (Bank.modM_eq_set _ _ _)
  have hmr := writesWhenTrue_of_setOp (ins := .rstMr i) (s := s) rfl rfl
  have ht := writesWhenTrue_of_setOp (ins := .rstT i) (s := s) rfl (Bank.modT_eq_set _ _ _)
  exact ⟨hdo.writes_of_writable rfl, hdo.skips, hdo.outOfRange, hdo.empty,
    hao.writes_of_writable rfl, hao.skips, hao.outOfRange, hao.empty,
    hm.writes, hm.skips, hm.outOfRange, hm.empty, hm.protects,
    hmr.writes, hmr.skips, hmr.outOfRange, hmr.empty, hmr.protects,
    ht.writes_of_writable rfl, ht.skips, ht.outOfRange, ht.empty⟩

end Sys2Proof.Machine
end

section
/-! PROOFS. The jump (spec/45_jump.md R180): what JMP does in each case, its word, and the hang of a jump to itself
(spec/70_reset_and_hazards.md R290). -/

namespace Sys2Proof.Machine

open Sys2Proof

/-! ### The jump, case by case -/

section
variable {t : Index} {s : State} {v : Value} {w : Word}

theorem jumpOp_of_le (h : s.rungLen ≤ t.toNat) : jumpOp t w s = s.raise .badProg w := by
  rw [jumpOp, if_neg h.not_gt]

theorem jumpOp_of_empty (h : t.toNat < s.rungLen) (hacc : s.eng.acc = .empty) :
    jumpOp t w s = s.raise .badProg w := by
  simp [jumpOp, h, hacc]

theorem jumpOp_of_true (h : t.toNat < s.rungLen) (hacc : s.eng.acc = .val v)
    (htrue : truth s.cfg.realEpsilon v = true) : jumpOp t w s = s.setPc (t.setWidth 25) := by
  simp [jumpOp, h, hacc, htrue]

theorem jumpOp_of_false (h : t.toNat < s.rungLen) (hacc : s.eng.acc = .val v)
    (hfalse : truth s.cfg.realEpsilon v = false) : jumpOp t w s = s.advance := by
  simp [jumpOp, h, hacc, hfalse]

end

theorem exec_jmp (t : Index) (s : State) : exec (.jmp t) s = .next (jumpOp t (encode (.jmp t)) s) := rfl

theorem encode_jmp_toNat (t : Index) : (encode (.jmp t)).toNat = 0x80 * 2 ^ 24 + t.toNat :=
  toNat_append_eq 0x80#8 t

/-- A JMP has no operand kind: its KIND field is 0 (30_encoding.md R87). -/
theorem decodeWord_of_jmp_kind_ne_zero {w : Word} (hop : (opField w).toNat = 8) (hkind : (kindField w).toNat ≠ 0) :
    decodeWord w = .error .badOperand := by
  rw [decodeWord_of_op_eight hop, if_neg]
  exact fun hzero => hkind (congrArg BitVec.toNat hzero)

/-- Settles O25: the cases of the jump, the word of JMP, and the verdict of OP 8 with a nonzero KIND. -/
theorem jumpMovesThePcWhenTheAccumulatorIsTrue : Obligations.JumpMovesThePcWhenTheAccumulatorIsTrue := by
  unfold Obligations.JumpMovesThePcWhenTheAccumulatorIsTrue
  refine ⟨fun t s => ⟨fun v h hacc htrue => ?taken, fun v h hacc hfalse => ?notTaken, fun h => ?badTarget,
    fun h hacc => ?empty, encode_jmp_toNat t⟩, fun w hop hkind => ?reservedKind⟩
  case taken =>
    rw [exec_jmp, jumpOp_of_true h hacc htrue, BitVec.ofNat_toNat]
    rfl
  case notTaken =>
    rw [exec_jmp, jumpOp_of_false h hacc hfalse]
    rfl
  case badTarget => rw [exec_jmp, jumpOp_of_le h]
  case empty => rw [exec_jmp, jumpOp_of_empty h hacc]
  case reservedKind =>
    rw [← opField_toNat] at hop
    rw [← kindField_toNat] at hkind
    exact decodeWord_of_jmp_kind_ne_zero hop hkind

/-! ### A step without a step limit -/

section
variable {s : State} {w : Word} {i : Instr}

theorem countStep_of_no_limit (h : s.cfg.rungStepLimit = none) : countStep s = s := by
  simp only [countStep, h]

theorem limitReached_of_no_limit (h : s.cfg.rungStepLimit = none) : limitReached s = false := by
  simp [limitReached, h]

theorem runWord_of_instr (hlim : limitReached s = false) (hi : decodeWord w = .ok i) :
    runWord w s = exec i (countStep s) := by
  simp only [runWord, hlim, hi, Bool.false_eq_true, if_false]

theorem runWord_of_no_limit (h : s.cfg.rungStepLimit = none) (hi : decodeWord w = .ok i) :
    runWord w s = exec i s := by
  rw [runWord_of_instr (limitReached_of_no_limit h) hi, countStep_of_no_limit h]

end

/-! ### The hang -/

theorem rungLen_of_rung {s : State} {r : Rung} (h : s.prog.rungs[s.eng.ri]? = some r) : s.rungLen = r.len := by
  simp only [State.rungLen, h]

/-- A taken jump to PC itself writes nothing new. -/
theorem exec_jmp_self {s : State} {t : Index} {v : Value} (hself : t.toNat = s.eng.pc.toNat)
    (hlen : s.eng.pc.toNat < s.rungLen) (hacc : s.eng.acc = .val v) (htrue : truth s.cfg.realEpsilon v = true) :
    exec (.jmp t) s = .next s := by
  have hpc : t.setWidth 25 = s.eng.pc := by
    rw [← BitVec.ofNat_toNat, hself, BitVec.ofNat_toNat, BitVec.setWidth_eq]
  rw [exec_jmp, jumpOp_of_true (hself ▸ hlen) hacc htrue, hpc]
  rfl

/-- A state that steps to itself stays for every number of steps. -/
theorem run_of_step_eq_self {M : Host.Core} {s : M.State} (h : M.step s = .next s) (n : Nat) :
    M.run n s = .next s := by
  induction n with
  | zero => rfl
  | succ n ih => rw [Host.Core.run, h]; exact ih

/-- Settles O14: with no limit to count towards, the step is the jump, which leaves the very same state. -/
theorem selfJumpNeverEnds : Obligations.SelfJumpNeverEnds := by
  unfold Obligations.SelfJumpNeverEnds
  intro s r v n hphase hrung hpc hword hlimit hacc htrue hdecode hwidth
  have hself : (BitVec.ofNat 24 s.eng.pc.toNat).toNat = s.eng.pc.toNat := Nat.mod_eq_of_lt hwidth
  have hlen : s.eng.pc.toNat < s.rungLen := rungLen_of_rung hrung ▸ hpc
  have hstep : step s = .next s := by
    rw [step_eq_runWord hphase hrung hpc hword, Program.word, runWord_of_no_limit hlimit hdecode]
    exact exec_jmp_self hself hlen hacc htrue
  exact run_of_step_eq_self (M := core) hstep n

end Sys2Proof.Machine
end

section
/-! PROOFS. The sequencer (spec/46_sequencer.md R185 to R201): the tick of one timer, blinker and counter in each of
its cases, what a timer and a blinker hold after any number of ticks, and the tick phase as a step. -/

namespace Sys2Proof.Machine

open Sys2Proof

/-! ### The tick of an on-delay timer, case by case -/

section
variable {k : TimerCfg} {x : TimerSlot}

theorem timerCount_c : (timerCount k x).c = if k.scale ≤ x.c + 1#64 then 0#64 else x.c + 1#64 := by
  unfold timerCount; split <;> rfl

theorem timerCount_v : (timerCount k x).v = if k.scale ≤ x.c + 1#64 then x.v + 1#64 else x.v := by
  unfold timerCount; split <;> rfl

@[simp] theorem timerCount_q : (timerCount k x).q = x.q := by unfold timerCount; split <;> rfl

@[simp] theorem timerCount_start : (timerCount k x).start = x.start := by unfold timerCount; split <;> rfl

theorem tickTimer_of_stopped (hstart : x.start = false) : tickTimer k x = ⟨0#64, 0#64, false, false⟩ := by
  simp [tickTimer, hstart]

theorem tickTimer_of_done (hstart : x.start = true) (hdone : k.preset ≤ x.v) :
    tickTimer k x = ⟨x.c, x.v, true, true⟩ := by
  simp [tickTimer, hstart, hdone]

theorem tickTimer_of_counting (hstart : x.start = true) (hcounting : x.v < k.preset) :
    tickTimer k x = ⟨(timerCount k x).c, (timerCount k x).v,
      x.q || decide (k.preset ≤ (timerCount k x).v), true⟩ := by
  have hnot : ¬ k.preset ≤ x.v := BitVec.not_le.mpr hcounting
  have hcount : timerCount k x = ⟨(timerCount k x).c, (timerCount k x).v, x.q, true⟩ := by
    rw [← timerCount_q (k := k), ← hstart, ← timerCount_start (k := k)]
  by_cases hreached : k.preset ≤ (timerCount k x).v
  · simp [tickTimer, hstart, hnot, hreached]
  · simpa [tickTimer, hstart, hnot, hreached] using hcount

end

/-! ### Counting sub-ticks up to the scale -/

theorem div_mod_succ_of_wrap {S n : Nat} (hwrap : n % S + 1 = S) : (n + 1) / S = n / S + 1 ∧ (n + 1) % S = 0 := by
  refine (Nat.div_mod_unique (by omega)).mpr ⟨?_, by omega⟩
  calc 0 + S * (n / S + 1) = S * (n / S) + S := by ring
    _ = S * (n / S) + n % S + 1 := by omega
    _ = n + 1 := by rw [Nat.div_add_mod]

theorem div_mod_succ_of_lt {S n : Nat} (hlt : n % S + 1 < S) : (n + 1) / S = n / S ∧ (n + 1) % S = n % S + 1 := by
  refine (Nat.div_mod_unique (by omega)).mpr ⟨?_, hlt⟩
  calc n % S + 1 + S * (n / S) = S * (n / S) + n % S + 1 := by ring
    _ = n + 1 := by rw [Nat.div_add_mod]

/-- The two branches of a sub-tick of a counter that holds `n mod S`: it reaches the scale and `floor(n / S)` moves by
one, or it counts on and `floor(n / S)` stays. Its increment does not wrap, since it is below the scale. -/
theorem subTick_cases {scale c : U64} {n : Nat} (hscale : 1 ≤ scale.toNat) (hc : c.toNat = n % scale.toNat) :
    (scale ≤ c + 1#64 ∧ (n + 1) / scale.toNat = n / scale.toNat + 1 ∧ (n + 1) % scale.toNat = 0)
    ∨ (¬ scale ≤ c + 1#64 ∧ (n + 1) / scale.toNat = n / scale.toNat
        ∧ (n + 1) % scale.toNat = (c + 1#64).toNat) := by
  have hlt : c.toNat < scale.toNat := hc ▸ Nat.mod_lt n hscale
  have hnext : (c + 1#64).toNat = c.toNat + 1 := by bv_omega
  by_cases hreached : scale ≤ c + 1#64
  · exact .inl ⟨hreached, div_mod_succ_of_wrap (by rw [BitVec.le_def] at hreached; omega)⟩
  · rw [hnext, hc]
    exact .inr ⟨hreached, div_mod_succ_of_lt (by rw [BitVec.le_def] at hreached; omega)⟩

/-! ### The on-delay timer with START held -/

/-- What R191 says of a timer after `n` ticks with START held. At `n = 0` the timer is cleared, with Q = 0 even for
the preset 0, whose Q comes with the first tick. -/
structure TimerHeld (k : TimerCfg) (n : Nat) (x : TimerSlot) : Prop where
  start : x.start = true
  v : x.v.toNat = min (n / k.scale.toNat) k.preset.toNat
  c : x.v.toNat < k.preset.toNat → x.c.toNat = n % k.scale.toNat
  q : x.q = true ↔ 1 ≤ n ∧ k.scale.toNat * k.preset.toNat ≤ n

section
variable {k : TimerCfg} {n : Nat} {x : TimerSlot}

/-- Before the preset, `V` and `C` are the quotient and the remainder of the number of ticks by the scale. -/
theorem timerCount_toNat (hscale : 1 ≤ k.scale.toNat) (hcounting : x.v < k.preset)
    (hv : x.v.toNat = n / k.scale.toNat) (hc : x.c.toNat = n % k.scale.toNat) :
    (timerCount k x).v.toNat = (n + 1) / k.scale.toNat ∧ (timerCount k x).c.toNat = (n + 1) % k.scale.toNat := by
  have hnext : (x.v + 1#64).toNat = x.v.toNat + 1 := by bv_omega
  rw [timerCount_v, timerCount_c]
  rcases subTick_cases hscale hc with ⟨hreached, hdiv, hmod⟩ | ⟨hbelow, hdiv, hmod⟩
  · rw [if_pos hreached, if_pos hreached, hdiv, hmod, hnext, hv]
    exact ⟨rfl, rfl⟩
  · rw [if_neg hbelow, if_neg hbelow, hdiv, hmod]
    exact ⟨hv, rfl⟩

namespace TimerHeld

theorem cleared (k : TimerCfg) : TimerHeld k 0 ⟨0#64, 0#64, false, true⟩ :=
  ⟨rfl, by simp, fun _ => by simp, by simp⟩

theorem tick (hscale : 1 ≤ k.scale.toNat) (h : TimerHeld k n x) : TimerHeld k (n + 1) (tickTimer k x) := by
  obtain ⟨hstart, hv, hc, hq⟩ := h
  have hmono : n / k.scale.toNat ≤ (n + 1) / k.scale.toNat := Nat.div_le_div_right (Nat.le_succ n)
  have hpreset (m : Nat) : k.scale.toNat * k.preset.toNat ≤ m ↔ k.preset.toNat ≤ m / k.scale.toNat := by
    rw [Nat.le_div_iff_mul_le hscale, Nat.mul_comm]
  rw [hpreset] at hq
  by_cases hdone : k.preset ≤ x.v
  · rw [tickTimer_of_done hstart hdone]
    rw [BitVec.le_def] at hdone
    exact ⟨rfl, by dsimp only; omega, fun hlt => absurd hdone (by dsimp only at hlt; omega),
      by rw [hpreset]; exact ⟨fun _ => by omega, fun _ => rfl⟩⟩
  · have hcounting : x.v < k.preset := BitVec.not_le.mp hdone
    have hlt : x.v.toNat < k.preset.toNat := hcounting
    have hquot : x.v.toNat = n / k.scale.toNat := by omega
    have hqfalse : x.q = false := by rw [← Bool.not_eq_true, hq]; omega
    obtain ⟨hv', hc'⟩ := timerCount_toNat hscale hcounting hquot (hc hlt)
    have hstep : (n + 1) / k.scale.toNat ≤ n / k.scale.toNat + 1 := by
      rcases subTick_cases hscale (hc hlt) with ⟨-, hdiv, -⟩ | ⟨-, hdiv, -⟩ <;> omega
    rw [tickTimer_of_counting hstart hcounting]
    exact ⟨rfl, by dsimp only; omega, fun _ => hc',
      by rw [hpreset, hqfalse, Bool.false_or, decide_eq_true_iff, BitVec.le_def, hv']; omega⟩

theorem iterate (hscale : 1 ≤ k.scale.toNat) (n : Nat) :
    TimerHeld k n ((tickTimer k)^[n] ⟨0#64, 0#64, false, true⟩) := by
  induction n with
  | zero => exact cleared k
  | succ n ih => rw [Function.iterate_succ_apply']; exact ih.tick hscale

theorem v_le_tick (hscale : 1 ≤ k.scale.toNat) (h : TimerHeld k n x) : x.v.toNat ≤ (tickTimer k x).v.toNat := by
  rw [h.v, (h.tick hscale).v]
  exact min_le_min_right _ (Nat.div_le_div_right (Nat.le_succ n))

end TimerHeld
end

/-- Settles O46: the closed form holds of the cleared timer and every tick keeps it. -/
theorem onDelayTimerClosedForm : Obligations.OnDelayTimerClosedForm := by
  unfold Obligations.OnDelayTimerClosedForm
  intro k n hscale hn x
  have h : TimerHeld k n x := TimerHeld.iterate hscale n
  exact ⟨h.start, h.v, h.c, h.q.trans (and_iff_right hn), h.v_le_tick hscale⟩

/-! ### The blinker from reset -/

/-- What R198 says of a blinker after `n` ticks from reset. -/
structure BlinkerRun (scale : U64) (n : Nat) (x : BlinkerSlot) : Prop where
  c : x.c.toNat = n % scale.toNat
  q : x.q = true ↔ n / scale.toNat % 2 = 1

namespace BlinkerRun

variable {scale : U64} {n : Nat} {x : BlinkerSlot}

theorem reset (scale : U64) : BlinkerRun scale 0 ⟨0#64, false⟩ := ⟨by simp, by simp⟩

theorem tick (hscale : 1 ≤ scale.toNat) (h : BlinkerRun scale n x) :
    BlinkerRun scale (n + 1) (tickBlinker scale x) := by
  obtain ⟨hc, hq⟩ := h
  unfold tickBlinker
  rcases subTick_cases hscale hc with ⟨hreached, hdiv, hmod⟩ | ⟨hbelow, hdiv, hmod⟩
  · rw [if_pos hreached]
    have htoggle : (!x.q) = true ↔ (n / scale.toNat + 1) % 2 = 1 := by
      rw [Bool.not_eq_true', ← Bool.not_eq_true, hq]; omega
    exact ⟨hmod.symm, hdiv ▸ htoggle⟩
  · rw [if_neg hbelow]
    exact ⟨hmod.symm, hdiv ▸ hq⟩

theorem iterate (hscale : 1 ≤ scale.toNat) (n : Nat) :
    BlinkerRun scale n ((tickBlinker scale)^[n] ⟨0#64, false⟩) := by
  induction n with
  | zero => exact reset scale
  | succ n ih => rw [Function.iterate_succ_apply']; exact ih.tick hscale

theorem eq_reset_of_period (hscale : 1 ≤ scale.toNat) (h : BlinkerRun scale (2 * scale.toNat) x) :
    x = ⟨0#64, false⟩ := by
  have hc : x.c = 0#64 := BitVec.eq_of_toNat_eq (by rw [h.c, Nat.mul_mod_left]; rfl)
  have hq : x.q = false := by rw [← Bool.not_eq_true, h.q, Nat.mul_div_cancel _ hscale]; decide
  cases x
  exact congrArg₂ BlinkerSlot.mk hc hq

end BlinkerRun

/-- Settles O47: the closed form holds at reset and every tick keeps it; the period is the closed form at `2S`. -/
theorem blinkerClosedForm : Obligations.BlinkerClosedForm := by
  unfold Obligations.BlinkerClosedForm
  intro scale n hscale x
  have h : BlinkerRun scale n x := BlinkerRun.iterate hscale n
  refine ⟨h.c, h.q, (BlinkerRun.iterate hscale _).eq_reset_of_period hscale, fun hone => ?_⟩
  have hunit : scale.toNat = 1 := by rw [hone]; rfl
  simpa only [hunit, Nat.div_one] using h.q

/-! ### The tick of a counter, case by case -/

section
variable {down prevPulse : Bool} {x : MemSlot}

theorem tickCounter_of_rise (hrise : risingEdge x.pulse prevPulse = true) :
    tickCounter down prevPulse x = { x with edge := true, v := if down then x.v - 1#64 else x.v + 1#64 } := by
  rw [tickCounter, if_pos hrise]

theorem tickCounter_of_no_rise (hrise : risingEdge x.pulse prevPulse = false) :
    tickCounter down prevPulse x = { x with edge := false } := by
  rw [tickCounter, if_neg (by simp [hrise])]

/-- A counter writes EDGE and V only. -/
theorem tickCounter_frame : (tickCounter down prevPulse x).edge = risingEdge x.pulse prevPulse
    ∧ (tickCounter down prevPulse x).pulse = x.pulse ∧ (tickCounter down prevPulse x).setf = x.setf
    ∧ (tickCounter down prevPulse x).resetf = x.resetf := by
  cases hrise : risingEdge x.pulse prevPulse
  case true => rw [tickCounter_of_rise hrise]; exact ⟨rfl, rfl, rfl, rfl⟩
  case false => rw [tickCounter_of_no_rise hrise]; exact ⟨rfl, rfl, rfl, rfl⟩

theorem tickCounter_up_v (hrise : risingEdge x.pulse prevPulse = true) :
    (tickCounter false prevPulse x).v.toNat = (x.v.toNat + 1) % 2 ^ 64 := by
  rw [tickCounter_of_rise hrise]
  exact BitVec.toNat_add x.v 1#64

theorem tickCounter_down_v (hrise : risingEdge x.pulse prevPulse = true) :
    (tickCounter true prevPulse x).v.toNat = (x.v.toNat + (2 ^ 64 - 1)) % 2 ^ 64 := by
  rw [tickCounter_of_rise hrise, Nat.add_comm]
  exact BitVec.toNat_sub x.v 1#64

end

/-! ### The tick phase as a step -/

section
variable {s : State}

theorem hasOffDelay_eq_false {c : Cfg} (h : ∀ k ∈ c.t, k.onDelay = true) : hasOffDelay c = false := by
  simpa [hasOffDelay] using h

theorem step_eq_stepTick (hphase : s.phase = .tick) : step s = stepTick s := by
  simp only [step, hphase]

theorem step_tick_of_not_running (hphase : s.phase = .tick) (hstate : s.ctl.state ≠ .running) :
    step s = .next { s with phase := .encode } := by
  rcases tickPhase_cases s with ⟨-, ht⟩ | ⟨hrun, -, -⟩ | ⟨hrun, -, -⟩
  · rw [step_eq_stepTick hphase, stepTick, ht]; rfl
  all_goals exact absurd hrun hstate

theorem step_tick_of_running (hphase : s.phase = .tick) (hstate : s.ctl.state = .running)
    (hon : ∀ k ∈ s.cfg.t, k.onDelay = true) :
    step s = .next { s with bank := Bank.tick s.cfg s.prev.bank s.bank, phase := .encode } := by
  rcases tickPhase_cases s with ⟨hnot, -⟩ | ⟨-, hoff, -⟩ | ⟨-, -, ht⟩
  · exact absurd hstate hnot
  · rw [hasOffDelay_eq_false hon] at hoff; cases hoff
  · rw [step_eq_stepTick hphase, stepTick, ht]; rfl

end

/-- Settles O44: the step writes `Bank.tick`, whose slots are the ticks of the slots. -/
theorem stoppedControllerDoesNotTick : Obligations.StoppedControllerDoesNotTick := by
  unfold Obligations.StoppedControllerDoesNotTick
  intro s hphase
  refine ⟨step_tick_of_not_running hphase, fun hstate hsized hon => ?_⟩
  obtain ⟨-, -, -, -, -, -, hlenT, hlenB⟩ := hsized
  refine ⟨_, step_tick_of_running hphase hstate hon, fun i hi => ?_, fun i hi => ?_, rfl, rfl, rfl, rfl, rfl, rfl⟩
  · simp only [Bank.tick_tAt _ _ _ i (hlenT.symm ▸ hi), ← timerCount_c, ← timerCount_v]
    exact ⟨tickTimer_of_stopped, tickTimer_of_done, tickTimer_of_counting⟩
  · exact Bank.tick_bAt _ _ _ i (hlenB.symm ▸ hi)

/-- Settles O45: each counter slot after the step is `tickCounter` of it. -/
theorem countersCountRisingPulsesAndWrap : Obligations.CountersCountRisingPulsesAndWrap := by
  unfold Obligations.CountersCountRisingPulsesAndWrap
  intro s hphase hstate hsized hon
  obtain ⟨-, -, -, -, hlenM, -, -, -⟩ := hsized
  refine ⟨_, step_tick_of_running hphase hstate hon, fun i hi => ?_⟩
  simp only [Bank.tick_mAt _ _ _ i (hlenM.symm ▸ hi)]
  obtain ⟨hedge, hpulse, hset, hreset⟩ :=
    tickCounter_frame (down := memDown s.cfg i) (prevPulse := (s.prev.bank.mAt i).pulse) (x := s.bank.mAt i)
  refine ⟨hedge, hpulse, hset, hreset, fun hrise => ?_, fun hrise hup => ?_, fun hrise hdown => ?_⟩
  · rw [tickCounter_of_no_rise hrise]
  · rw [hup]; exact tickCounter_up_v hrise
  · rw [hdown]; exact tickCounter_down_v hrise

end Sys2Proof.Machine
end

section
/-! PROOFS. START, STOP and the host phase (spec/47_rung_and_scan.md R223, R230, R231, R234): what the two operations
do to the controller, and the operations of one scan in a row. -/

namespace Sys2Proof.Machine

open Sys2Proof

/-! ### START and STOP by the state of the controller -/

section
variable {s : State}

theorem State.start_of_stopped (h : s.ctl.state = .stopped) :
    s.start = { s with ctl := { s.ctl with state := .running, err := none } } := by
  simp only [State.start, h]

theorem State.start_of_not_stopped (h : s.ctl.state ≠ .stopped) : s.start = s := by
  cases hstate : s.ctl.state with
  | stopped => exact absurd hstate h
  | running | terminated => simp only [State.start, hstate]

theorem State.stop_of_running (h : s.ctl.state = .running) :
    s.stop = { s with ctl := { s.ctl with state := .stopped } } := by
  simp only [State.stop, h]

theorem State.stop_of_not_running (h : s.ctl.state ≠ .running) : s.stop = s := by
  cases hstate : s.ctl.state with
  | running => exact absurd hstate h
  | stopped | terminated => simp only [State.stop, hstate]

/-- A STOP and a START in one host phase only clear ERR. -/
theorem State.stop_start_of_running (h : s.ctl.state = .running) :
    s.stop.start = { s with ctl := { s.ctl with state := .running, err := none } } := by
  rw [State.stop_of_running h, State.start_of_stopped rfl]

end

/-- Settles O48: START acts in STOPPED only, STOP in RUNNING only. -/
theorem startAndStopMoveTheController : Obligations.StartAndStopMoveTheController := by
  unfold Obligations.StartAndStopMoveTheController
  intro s
  refine ⟨fun h => ?_, fun h => ?_, fun h => ?_, fun h => ?_, rfl⟩
  · rw [applyOp, State.start_of_stopped h]
  · rw [applyOp, State.start_of_not_stopped h]
  · rw [applyOp, State.stop_of_running h]
  · rw [applyOp, State.stop_of_not_running h]

/-! ### The operations of one scan in a row -/

theorem applyOps_cons (op : HostOp) (ops : List HostOp) (s : State) : applyOps (op :: ops) s =
    ((applyOps ops (applyOp op s).1).1, (applyOp op s).2 :: (applyOps ops (applyOp op s).1).2) := rfl

theorem applyOps_append (a b : List HostOp) (s : State) : applyOps (a ++ b) s =
    ((applyOps b (applyOps a s).1).1, (applyOps a s).2 ++ (applyOps b (applyOps a s).1).2) := by
  induction a generalizing s with
  | nil => rfl
  | cons op a ih => rw [List.cons_append, applyOps_cons, ih, applyOps_cons, List.cons_append]

theorem length_applyOps (ops : List HostOp) (s : State) : (applyOps ops s).2.length = ops.length := by
  induction ops generalizing s with
  | nil => rfl
  | cons op ops ih => rw [applyOps_cons, List.length_cons, ih, List.length_cons]

theorem step_host {s : State} (hphase : s.phase = .host) : step s = .next
    { (applyOps s.hostOps s).1 with hostOps := [], answers := (applyOps s.hostOps s).2, phase := .boundary } := by
  simp only [step, hphase]
  rfl

/-- Settles O52: the step is the effect of the operations in a row, and that effect is a fold over their list. -/
theorem hostPhaseAppliesTheOperationsInOrder : Obligations.HostPhaseAppliesTheOperationsInOrder := by
  unfold Obligations.HostPhaseAppliesTheOperationsInOrder
  refine ⟨fun s hphase => ?_, applyOps_append, fun op s => rfl, fun s t hphase hrun hops hstep => ?_⟩
  · exact ⟨_, _, rfl, length_applyOps s.hostOps s, step_host hphase⟩
  · have heffect : (applyOps [.stop, .start] s).1 = s.stop.start := rfl
    rw [step_host hphase, hops, heffect, State.stop_start_of_running hrun] at hstep
    cases hstep
    exact ⟨rfl, rfl⟩

end Sys2Proof.Machine
end

section
/-! PROOFS. The rung engine and the scan (spec/47_rung_and_scan.md R210 to R214, R220): the step at the boundary, at
the head of the loop over the rungs, at the end of a rung and at an instruction inside it. -/

namespace Sys2Proof.Machine

open Sys2Proof

section
variable {s : State}

/-! ### Inside a rung -/

/-- Settles O8: the step runs the word at PC, which below the step limit is exec of its instruction. -/
theorem stepRunsTheDecodedInstruction : Obligations.StepRunsTheDecodedInstruction := by
  unfold Obligations.StepRunsTheDecodedInstruction
  intro s r i hphase hrung hpc hword hlimit hi
  rw [step_eq_runWord hphase hrung hpc hword, Program.word, runWord_of_instr (decide_eq_false hlimit) hi, countStep_eq]

theorem step_of_fetch_complete (hphase : s.phase = .rung) (hfetch : fetch s = .complete) :
    step s = .next (finishRung s) := by
  simp only [step, hphase, stepRung, hfetch]

theorem fetch_complete {r : Rung} (hrung : s.prog.rungs[s.eng.ri]? = some r) (hend : s.eng.pc.toNat = r.len) :
    fetch s = .complete := by
  simp only [fetch, hrung, if_pos hend]

/-! ### The head of the loop over the rungs -/

theorem step_eq_stepLoop (hphase : s.phase = .execute) : step s = .next (stepLoop s) := by
  simp only [step, hphase]

theorem stepLoop_of_running (hrun : s.ctl.state = .running) (hri : s.eng.ri < s.prog.rungs.length) :
    stepLoop s = s.startRung s.eng.ri := by
  rw [stepLoop, if_pos ⟨hrun, hri⟩]

theorem stepLoop_of_leaves (h : s.ctl.state ≠ .running ∨ s.prog.rungs.length ≤ s.eng.ri) :
    stepLoop s = s.enter .tick := by
  refine if_neg fun ⟨hrun, hri⟩ => ?_
  rcases h with hnot | hle
  · exact hnot hrun
  · exact absurd hri hle.not_gt

/-- Settles O10: at the loop head by the two branches of the head, in the rung by the fetch at its end. -/
theorem rungsStartAndCompleteInOrder : Obligations.RungsStartAndCompleteInOrder := by
  unfold Obligations.RungsStartAndCompleteInOrder
  intro s
  refine ⟨fun hphase hrun hri => ?_, fun hphase hleaves => ?_, fun r hphase hrung hend => ?_⟩
  · rw [step_eq_stepLoop hphase, stepLoop_of_running hrun hri]; rfl
  · rw [step_eq_stepLoop hphase, stepLoop_of_leaves hleaves]; rfl
  · rw [step_of_fetch_complete hphase (fetch_complete hrung hend)]; rfl

/-! ### The boundary -/

theorem step_boundary_terminated (hphase : s.phase = .boundary) (hstate : s.ctl.state = .terminated) :
    step s = .fault .runEnded := by
  simp only [step, hphase, stepBoundary, hstate]

theorem step_boundary (hphase : s.phase = .boundary) (hstate : s.ctl.state ≠ .terminated) :
    step s = .next (beginScan s) := by
  simp only [step, hphase]
  rcases stepBoundary_cases s with ⟨hterm, -⟩ | ⟨-, hstep⟩
  · exact absurd hterm hstate
  · exact hstep

/-- Settles O11: outside TERMINATED the step begins the next scan, by the list of scans and SHUTDOWN_REQ. -/
theorem shutdownWinsAtTheBoundary : Obligations.ShutdownWinsAtTheBoundary := by
  unfold Obligations.ShutdownWinsAtTheBoundary
  intro s hphase
  refine ⟨step_boundary_terminated hphase, fun hstate hnone => ?_, fun x rest hstate hscan hreq => ?_,
    fun x rest hstate hscan hreq => ?_⟩
  · simp only [step_boundary hphase hstate, beginScan, hnone]
  · simp only [step_boundary hphase hstate, beginScan, hscan, hreq, if_true]
  · simp only [step_boundary hphase hstate, beginScan, hscan, hreq, Bool.false_eq_true, if_false]

end

end Sys2Proof.Machine
end

section
/-! PROOFS. How a run ends (spec/47_rung_and_scan.md R223, spec/10_state.md R36): only the boundary leads to
TERMINATED, and with the invariant only a step in TERMINATED gives no next state. -/

namespace Sys2Proof.Machine

open Sys2Proof

/-! ### Who enters TERMINATED, and who clears SHUTDOWN_REQ -/

/-- From the controller registers `k` to `l`, TERMINATED is not entered and SHUTDOWN_REQ is not cleared. -/
structure KeepsRunning (k l : Controller) : Prop where
  state : l.state = .terminated → k.state = .terminated
  request : k.shutdownReq = true → l.shutdownReq = true

namespace KeepsRunning

theorem of_eq {k l : Controller} (h : l = k) : KeepsRunning k l := h ▸ ⟨id, id⟩

theorem trans {j k l : Controller} (hjk : KeepsRunning j k) (hkl : KeepsRunning k l) : KeepsRunning j l :=
  ⟨hjk.state ∘ hkl.state, hkl.request ∘ hjk.request⟩

theorem after_raise (e : ErrorKind) (w : Word) (s : State) : KeepsRunning s.ctl (s.raise e w).ctl := ⟨nofun, id⟩

theorem after_start (s : State) : KeepsRunning s.ctl s.start.ctl := by
  by_cases h : s.ctl.state = .stopped
  · rw [State.start_of_stopped h]; exact ⟨nofun, id⟩
  · exact .of_eq (by rw [State.start_of_not_stopped h])

theorem after_stop (s : State) : KeepsRunning s.ctl s.stop.ctl := by
  by_cases h : s.ctl.state = .running
  · rw [State.stop_of_running h]; exact ⟨nofun, id⟩
  · exact .of_eq (by rw [State.stop_of_not_running h])

theorem after_applyOp (op : HostOp) (s : State) : KeepsRunning s.ctl (applyOp op s).1.ctl := by
  rcases applyOp_cases op s with h | h | h | h | ⟨f, h⟩ <;> rw [h]
  · exact .of_eq rfl
  · exact .after_start s
  · exact .after_stop s
  · exact ⟨id, fun _ => rfl⟩
  · exact .of_eq rfl

theorem after_stepHost (s : State) : KeepsRunning s.ctl (stepHost s).ctl :=
  applyOps_keeps (P := fun u => KeepsRunning s.ctl u.ctl) (fun op u hu => hu.trans (.after_applyOp op u)) s.hostOps s
    (.of_eq rfl)

theorem after_execResult {s t : State} (h : ExecResult s t) : KeepsRunning s.ctl t.ctl := by
  cases h with
  | raise e w => exact .after_raise e w s
  | setAcc | write | advance | jump => exact .of_eq rfl

theorem after_runWord {w : Word} {s t : State} (h : runWord w s = .next t) : KeepsRunning s.ctl t.ctl := by
  have hcount : KeepsRunning s.ctl (countStep s).ctl := .of_eq (countStep_ctl s)
  rcases runWord_cases h with ⟨-, rfl⟩ | ⟨-, e, -, rfl⟩ | ⟨-, i, -, hexec⟩
  · exact .after_raise _ w s
  · exact hcount.trans (.after_raise e w (countStep s))
  · exact hcount.trans (.after_execResult (execResult_of_exec hexec))

theorem after_stepLoop (s : State) : KeepsRunning s.ctl (stepLoop s).ctl := by
  rcases stepLoop_cases s with ⟨-, -, h⟩ | h <;> exact .of_eq (by rw [h]; rfl)

theorem after_tickPhase {s t : State} (h : tickPhase s = .next t) : KeepsRunning s.ctl t.ctl := by
  rcases tickPhase_cases s with ⟨-, ht⟩ | ⟨-, -, ht⟩ | ⟨-, -, ht⟩ <;> cases ht.symm.trans h <;> exact .of_eq rfl

/-- The boundary with SHUTDOWN_REQ set is the one place that enters TERMINATED. -/
theorem after_beginScan {s : State} (hreq : s.ctl.shutdownReq = false) : KeepsRunning s.ctl (beginScan s).ctl := by
  rcases beginScan_cases s with ⟨-, h⟩ | ⟨x, rest, -, ⟨hset, -⟩ | ⟨-, h⟩⟩
  · exact .of_eq (by rw [h])
  · cases hreq.symm.trans hset
  · exact .of_eq (by rw [h])

end KeepsRunning

theorem beginScan_shutdownReq (s : State) : (beginScan s).ctl.shutdownReq = s.ctl.shutdownReq := by
  rcases beginScan_cases s with ⟨-, h⟩ | ⟨x, rest, -, ⟨-, h⟩ | ⟨-, h⟩⟩ <;> rw [h]

/-- Every step either keeps the controller out of TERMINATED or is the boundary with SHUTDOWN_REQ set. -/
theorem step_keepsRunning {s t : State} (h : step s = .next t) :
    KeepsRunning s.ctl t.ctl ∨ (s.phase = .boundary ∧ s.ctl.shutdownReq = true ∧ t.ctl.shutdownReq = true) := by
  rcases step_cases h with ⟨hphase, -, rfl⟩ | ⟨-, rfl⟩ | ⟨-, rfl⟩ | ⟨-, -, rfl⟩ | ⟨-, w, -, hrun⟩ | ⟨-, u, hu, rfl⟩
    | ⟨-, rfl⟩ | ⟨-, rfl⟩ | ⟨-, rfl⟩
  · cases hreq : s.ctl.shutdownReq with
    | true => exact .inr ⟨hphase, rfl, (beginScan_shutdownReq s).trans hreq⟩
    | false => exact .inl (.after_beginScan hreq)
  · exact .inl (.of_eq rfl)
  · exact .inl (.after_stepLoop s)
  · exact .inl (.of_eq rfl)
  · exact .inl (.after_runWord hrun)
  · have hkeeps : KeepsRunning s.ctl u.ctl := .after_tickPhase hu
    exact .inl hkeeps
  · exact .inl (.of_eq rfl)
  · exact .inl ⟨id, id⟩
  · exact .inl (.after_stepHost s)

/-- Settles O12: the boundary with SHUTDOWN_REQ set enters TERMINATED, and no other step does. -/
theorem onlyShutdownLeadsToTerminated : Obligations.OnlyShutdownLeadsToTerminated := by
  unfold Obligations.OnlyShutdownLeadsToTerminated
  intro s t h
  rcases step_keepsRunning h with hkeeps | ⟨hphase, hreq, hreq'⟩
  · exact ⟨fun hterm hnot => absurd (hkeeps.state hterm) hnot, hkeeps.request⟩
  · exact ⟨fun _ _ => ⟨hphase, hreq⟩, fun _ => hreq'⟩

/-! ### Every step before the end gives a next state -/

theorem rung_end_le_words {s : State} {r : Rung} (h : Accepted s) (hr : s.prog.rungs[s.eng.ri]? = some r) :
    r.base + r.len ≤ s.prog.words := by
  obtain ⟨-, hp, -⟩ := configFlaw_eq_none h
  simp only [programSizeOk, Bool.and_eq_true, List.all_eq_true] at hp
  obtain ⟨-, hrungs⟩ := hp
  have hok := hrungs r (List.mem_of_getElem? hr)
  simp only [rungOk, Bool.and_eq_true, decide_eq_true_eq] at hok
  exact hok.2

theorem runWord_next (w : Word) (s : State) : ∃ t, runWord w s = .next t := by
  cases hlim : limitReached s with
  | true => exact ⟨_, runWord_of_limitReached w hlim⟩
  | false =>
    cases hd : decodeWord w with
    | error e => exact ⟨_, runWord_of_verdict hlim hd⟩
    | ok i => rw [runWord_of_instr hlim hd]; exact exec_next i (countStep s)

theorem safeOutcome_of_next {s : State} (h : ∃ t, step s = .next t) : SafeOutcome s (step s) := by
  obtain ⟨t, ht⟩ := h
  rw [ht]
  trivial

theorem safeOutcome_boundary {s : State} (hphase : s.phase = .boundary) : SafeOutcome s (step s) := by
  by_cases hstate : s.ctl.state = .terminated
  · rw [step_boundary_terminated hphase hstate]; exact ⟨hphase, hstate⟩
  · exact safeOutcome_of_next ⟨_, step_boundary hphase hstate⟩

namespace InvParts

variable {s : State}

/-- `PC` is in `0 .. LEN[RI]` and the rung lies in the store, so that the fetch finds the end of the rung or a word. -/
theorem step_rung_next (h : InvParts s) (hphase : s.phase = .rung) : ∃ t, step s = .next t := by
  obtain ⟨-, hri, hpc, -⟩ := h.engine hphase
  have hrung : s.prog.rungs[s.eng.ri]? = some s.prog.rungs[s.eng.ri] := List.getElem?_eq_getElem hri
  rw [rungLen_of_rung hrung] at hpc
  have hword := rung_end_le_words h.accepted hrung
  rcases hpc.eq_or_lt with hend | hinside
  · exact ⟨_, step_of_fetch_complete hphase (fetch_complete hrung hend)⟩
  · rw [step_eq_runWord hphase hrung hinside (by omega)]
    exact runWord_next _ s

/-- No accepted configuration has an off-delay timer. -/
theorem step_tick_next (h : InvParts s) (hphase : s.phase = .tick) : ∃ t, step s = .next t := by
  obtain ⟨-, -, -, hon, -⟩ := configFlaw_eq_none h.accepted
  by_cases hstate : s.ctl.state = .running
  · exact ⟨_, step_tick_of_running hphase hstate (by simpa [onDelayOk] using hon)⟩
  · exact ⟨_, step_tick_of_not_running hphase hstate⟩

theorem safeOutcome (h : InvParts s) : SafeOutcome s (step s) := by
  cases hphase : s.phase with
  | boundary => exact safeOutcome_boundary hphase
  | rung => exact safeOutcome_of_next (h.step_rung_next hphase)
  | tick => exact safeOutcome_of_next (h.step_tick_next hphase)
  | decode | execute | encode | delta | host => exact safeOutcome_of_next ⟨_, by simp only [step, hphase]; rfl⟩

end InvParts

/-- Settles O60: only the fetch, the tick and the boundary could fail, and the invariant rules out the first two. -/
theorem noStepFailsUntilTheRunEnds : Obligations.NoStepFailsUntilTheRunEnds := by
  unfold Obligations.NoStepFailsUntilTheRunEnds
  exact fun s h => ((inv_iff_invParts s).1 h).safeOutcome

end Sys2Proof.Machine
end

section
/-! PROOFS. Reset as the checks of spec/70_reset_and_hazards.md R281 decide it, and the block it gives (R280): the
invariant holds of it. -/

namespace Sys2Proof.Machine

open Sys2Proof

/-! ### Which configurations and programs reset accepts -/

theorem configFlaw_eq_none_iff (c : Cfg) (p : Program) : configFlaw c p = none ↔
    slotCountsOk c = true ∧ programSizeOk c p = true ∧ scalesOk c = true ∧ onDelayOk c = true
      ∧ rangesOk c = true ∧ parametersOk c = true := by
  refine ⟨configFlaw_eq_none, ?_⟩
  rintro ⟨hcounts, hprog, hscales, hdelay, hranges, hparams⟩
  simp [configFlaw, hcounts, hprog, hscales, hdelay, hranges, hparams]

theorem slotCountsOk_iff (c : Cfg) : slotCountsOk c = true ↔
    c.nDI ≤ 2 ^ 24 ∧ c.nDO ≤ 2 ^ 24 ∧ c.ai.length ≤ 2 ^ 24 ∧ c.ao.length ≤ 2 ^ 24 ∧ c.m.length ≤ 2 ^ 24
      ∧ c.mr.length ≤ 2 ^ 24 ∧ c.t.length ≤ 2 ^ 24 ∧ c.b.length ≤ 2 ^ 24 := by
  simp only [slotCountsOk, Bool.and_eq_true, decide_eq_true_eq, and_assoc]
  rfl

theorem programSizeOk_iff (c : Cfg) (p : Program) : programSizeOk c p = true ↔
    c.maxRungs ≤ 2 ^ 24 ∧ p.rungs.length ≤ c.maxRungs
      ∧ ∀ r ∈ p.rungs, r.len ≤ 2 ^ 24 ∧ r.base + r.len ≤ p.words := by
  simp only [programSizeOk, rungOk, Bool.and_eq_true, decide_eq_true_eq, List.all_eq_true, and_assoc]
  rfl

theorem scalesOk_iff (c : Cfg) : scalesOk c = true ↔ (∀ k ∈ c.t, k.scale ≠ 0#64) ∧ ∀ x ∈ c.b, x ≠ 0#64 := by
  simp only [scalesOk, Bool.and_eq_true, List.all_eq_true, bne_iff_ne]

theorem onDelayOk_iff (c : Cfg) : onDelayOk c = true ↔ ∀ k ∈ c.t, k.onDelay = true := List.all_eq_true

theorem rangesOk_iff (c : Cfg) : rangesOk c = true ↔
    ∀ r, r ∈ c.ai ∨ r ∈ c.ao → F64.lt r.min r.max = true ∧ (F64.sub r.max r.min).isFinite = true := by
  simp only [rangesOk, rangeOk, Bool.and_eq_true, List.all_eq_true, or_imp, forall_and, and_and_and_comm]

/-- Neither negative nor a NaN; so -0.0, whose value is 0, is accepted (log entry 13). -/
theorem zero_le_iff (x : F64) : F64.le F64.zero x = true ↔ x.isNaN = false ∧ 0 ≤ x.units := by
  have hnan : F64.zero.isNaN = false := by decide
  have hunits : F64.zero.units = 0 := by decide
  simp only [F64.le_iff, hnan, hunits, true_and]

theorem parametersOk_iff (c : Cfg) : parametersOk c = true ↔
    (1 ≤ c.analogBits ∧ c.analogBits ≤ 64)
      ∧ (c.realEpsilon.isNaN = false ∧ 0 ≤ c.realEpsilon.units) ∧ c.rungStepLimit ≠ some 0 := by
  simp only [parametersOk, Bool.and_eq_true, decide_eq_true_eq, zero_le_iff, and_assoc]

theorem boot_of_accepted {c : Cfg} {p : Program} (h : configFlaw c p = none) :
    boot c p = .next (State.ofConfig c p) := by
  simp only [boot, h]

theorem boot_of_flaw {c : Cfg} {p : Program} {f : ConfigFlaw} (h : configFlaw c p = some f) :
    boot c p = .refused (.badConfig f) := by
  simp only [boot, h]

/-- Settles O56: reset goes by `configFlaw`, and that is `none` exactly when every check of the rule holds. -/
theorem bootRefusesExactlyTheBadConfigurations : Obligations.BootRefusesExactlyTheBadConfigurations := by
  unfold Obligations.BootRefusesExactlyTheBadConfigurations
  intro c p
  dsimp only
  rw [← slotCountsOk_iff, ← programSizeOk_iff, ← scalesOk_iff, ← onDelayOk_iff, ← rangesOk_iff, ← parametersOk_iff,
    ← configFlaw_eq_none_iff]
  refine ⟨boot_of_accepted, fun h => ?_⟩
  obtain ⟨f, hf⟩ := Option.ne_none_iff_exists'.1 h
  exact ⟨f, boot_of_flaw hf⟩

/-! ### The block that reset gives -/

theorem accepted_of_boot {c : Cfg} {p : Program} {s : State} (h : boot c p = .next s) : configFlaw c p = none := by
  cases hf : configFlaw c p with
  | none => rfl
  | some f => cases (boot_of_flaw hf).symm.trans h

/-- Every slot at reset is cleared or has its configured value; a counter below its scale needs a scale above 0. -/
theorem Bank.reset_bankOk {c : Cfg} {p : Program} (h : configFlaw c p = none) : BankOk c (Bank.reset c) where
  sized := Bank.sized_reset c
  edges d hd := by
    obtain rfl := List.eq_of_mem_replicate hd
    exact ⟨nofun, nofun⟩
  timers i hi := by
    rw [Bank.reset_tAt]
    exact ⟨Nat.zero_le _, timerScale_pos h hi, nofun⟩
  blinkers i hi := by
    rw [Bank.reset_bAt]
    exact blinkerScale_pos h hi
  readOnly := ⟨fun _ _ _ => rfl, fun _ _ _ => rfl⟩

theorem invParts_ofConfig {c : Cfg} {p : Program} (h : configFlaw c p = none) (hwf : p.imem.wf = true) :
    InvParts (State.ofConfig c p) where
  accepted := h
  bank := Bank.reset_bankOk h
  prevSized := Bank.sized_reset c
  forceSized := Forcing.sized_reset c
  canonical := ⟨hwf, rfl, rfl⟩
  inRange := ⟨rfl, rfl⟩
  engine := nofun
  controller := ⟨nofun, nofun, rfl⟩

/-- Settles O57: the bank and the registers of `State.ofConfig` meet the invariant part by part. -/
theorem bootEstablishesTheInvariant : Obligations.BootEstablishesTheInvariant := by
  unfold Obligations.BootEstablishesTheInvariant
  intro c p s hwf hboot
  have hinv := invParts_ofConfig (accepted_of_boot hboot) hwf
  obtain rfl := boot_eq_next hboot
  exact ⟨(inv_iff_invParts _).2 hinv, fun a => ⟨rfl, rfl⟩, rfl⟩

theorem cfgA_accepted : configFlaw Cfg.cfgA Program.empty = none := by decide +kernel

/-- Settles O58: reset accepts CFG-A with the empty program, so O57 applies. -/
theorem resetStateIsABootedBlockWithTheInvariant : Obligations.ResetStateIsABootedBlockWithTheInvariant := by
  unfold Obligations.ResetStateIsABootedBlockWithTheInvariant
  have hboot : boot Cfg.cfgA Program.empty = .next State.reset := boot_of_accepted cfgA_accepted
  obtain ⟨hinv, -, -⟩ := bootEstablishesTheInvariant _ _ _ rfl hboot
  exact ⟨hboot, hinv⟩

end Sys2Proof.Machine
end

section
/-! PROOFS. What instructions and refused host operations leave as it was (spec/60_exceptions.md R261, R264, R265,
spec/20_memory.md R71). -/

namespace Sys2Proof.Machine

open Sys2Proof

/-! ### A refused host operation -/

theorem forceOp_of_badIndex {n i : Nat} {f : Forcing} {s : State} (h : (forceOp n i f s).2 = .badIndex) :
    (forceOp n i f s).1 = s := by
  rcases forceOp_cases n i f s with ⟨-, hf⟩ | ⟨-, hf⟩ <;> rw [hf] at h ⊢
  cases h

/-- Settles O51: START, STOP, SHUTDOWN and the snapshot are never refused, a force operation is refused only with no
effect, and a query or a read of a control register has none. -/
theorem refusedHostOperationChangesNothing : Obligations.RefusedHostOperationChangesNothing := by
  unfold Obligations.RefusedHostOperationChangesNothing
  intro op s h
  cases op with
  | start | stop | shutdown => cases h
  | forceDI | unforceDI | forceDO | unforceDO | forceAI | unforceAI | forceAO | unforceAO => exact forceOp_of_badIndex h
  | isInputForced | isOutputForced | isAIForced | isAOForced => exact queryOp_fst _ _ _ _
  | readSnapshot => rfl
  | readCsr n => exact applyOp_readCsr_fst n s

/-! ### What an instruction may not write in the register bank -/

/-- The slots and fields that no instruction writes: the inputs, the blinkers, `C`, `V` and `Q` of a timer and EDGE of
a counter (60_exceptions.md R264, R265). -/
structure SameProtected (b b' : Bank) : Prop where
  di : b'.di = b.di
  ai : b'.ai = b.ai
  blinkers : b'.b = b.b
  slots : ∀ j, (b'.tAt j).c = (b.tAt j).c ∧ (b'.tAt j).v = (b.tAt j).v ∧ (b'.tAt j).q = (b.tAt j).q
    ∧ (b'.mAt j).edge = (b.mAt j).edge

namespace SameProtected

variable {b b' : Bank}

theorem of_eq (h : b' = b) : SameProtected b b' := h ▸ ⟨rfl, rfl, rfl, fun _ => ⟨rfl, rfl, rfl, rfl⟩⟩

theorem modDo (b : Bank) (i : Nat) (f : DoSlot → DoSlot) : SameProtected b (b.modDo i f) :=
  ⟨rfl, rfl, rfl, fun _ => ⟨rfl, rfl, rfl, rfl⟩⟩

theorem setAo (b : Bank) (i : Nat) (v : F64) : SameProtected b (b.setAo i v) :=
  ⟨rfl, rfl, rfl, fun _ => ⟨rfl, rfl, rfl, rfl⟩⟩

theorem modM (b : Bank) (i : Nat) {f : MemSlot → MemSlot} (hf : ∀ x, (f x).edge = x.edge) :
    SameProtected b (b.modM i f) := by
  refine ⟨rfl, rfl, rfl, fun j => ⟨rfl, rfl, rfl, ?_⟩⟩
  rw [Bank.mAt_modM]
  split
  · exact hf _
  · rfl

theorem setMr (b : Bank) (i : Nat) (v : F64) : SameProtected b (b.setMr i v) :=
  ⟨rfl, rfl, rfl, fun _ => ⟨rfl, rfl, rfl, rfl⟩⟩

theorem modT (b : Bank) (i : Nat) (start : Bool) : SameProtected b (b.modT i fun x => { x with start := start }) := by
  refine ⟨rfl, rfl, rfl, fun j => ?_⟩
  rw [Bank.tAt_modT]
  split <;> exact ⟨rfl, rfl, rfl, rfl⟩

theorem after_storeOp {k : Kind} {i : Index} {wr : Value → Bank → Bank} {w : Word} {s : State}
    (hwr : ∀ v, SameProtected s.bank (wr v s.bank)) : SameProtected s.bank (storeOp k i wr w s).bank := by
  rcases storeOp_bank k i wr w s with h | ⟨v, h⟩
  · exact .of_eq h
  · exact h ▸ hwr v

theorem after_setOp {k : Kind} {i : Index} {wr : Bank → Bank} {w : Word} {s : State}
    (hwr : SameProtected s.bank (wr s.bank)) : SameProtected s.bank (setOp k i wr w s).bank := by
  rcases setOp_bank k i wr w s with h | h
  · exact .of_eq h
  · exact h ▸ hwr

theorem after_exec {i : Instr} {s t : State} (h : exec i s = .next t) : SameProtected s.bank t.bank := by
  cases i with
  | ldDi x | ldRe x | ldFe x | ldDo x | ldAi x | ldAo x | ldM x | ldMr x | ldT x =>
    cases h; exact .of_eq (loadOp_bank _ _ _ _)
  | andDi x | andRe x | andFe x | andDo x | andAi x | andAo x | andM x | andMr x | andT x
  | orDi x | orRe x | orFe x | orDo x | orAi x | orAo x | orM x | orMr x | orT x
  | andnDi x | andnRe x | andnFe x | andnDo x | andnAi x | andnAo x | andnM x | andnMr x | andnT x
  | ornDi x | ornRe x | ornFe x | ornDo x | ornAi x | ornAo x | ornM x | ornMr x | ornT x =>
    cases h; exact .of_eq (combineOp_bank _ _ _ _ _)
  | jmp x => cases h; exact .of_eq (jumpOp_bank _ _ _)
  | stDo x => cases h; exact after_storeOp fun _ => modDo _ _ _
  | stAo x => cases h; exact after_storeOp fun _ => setAo _ _ _
  | stM x => cases h; exact after_storeOp fun _ => modM _ _ fun _ => rfl
  | stMr x => cases h; exact after_storeOp fun _ => setMr _ _ _
  | setDo x | rstDo x => cases h; exact after_setOp (modDo _ _ _)
  | setAo x | rstAo x => cases h; exact after_setOp (setAo _ _ _)
  | setM x | rstM x => cases h; exact after_setOp (modM _ _ fun _ => rfl)
  | setMr x | rstMr x => cases h; exact after_setOp (setMr _ _ _)
  | setT x | rstT x => cases h; exact after_setOp (modT _ _ _)

end SameProtected

/-! ### What an instruction leaves as it was outside the register bank -/

/-- What no instruction writes outside the register bank. -/
structure InstrFrame (s t : State) : Prop where
  cfg : t.cfg = s.cfg
  prog : t.prog = s.prog
  prev : t.prev = s.prev
  force : t.force = s.force
  shutdownReq : t.ctl.shutdownReq = s.ctl.shutdownReq
  delta : t.ctl.delta = s.ctl.delta
  ri : t.eng.ri = s.eng.ri
  steps : t.eng.steps = s.eng.steps
  rawDI : t.rawDI = s.rawDI
  rawAI : t.rawAI = s.rawAI
  rawDO : t.rawDO = s.rawDO
  rawAO : t.rawAO = s.rawAO
  hostOps : t.hostOps = s.hostOps
  answers : t.answers = s.answers
  pending : t.pending = s.pending

theorem ExecResult.frame {s t : State} (h : ExecResult s t) : InstrFrame s t := by
  cases h <;> constructor <;> rfl

/-- Settles O33: the frame of the next states of an instruction, and what it may write in the bank. -/
theorem instructionsKeepToTheirRights : Obligations.InstructionsKeepToTheirRights := by
  unfold Obligations.InstructionsKeepToTheirRights
  intro i s t h
  obtain ⟨hdi, hai, hb, hslots⟩ := SameProtected.after_exec h
  obtain ⟨hcfg, hprog, hprev, hforce, hreq, hdelta, hri, hsteps, hDI, hAI, hDO, hAO, hops, hans, hpend⟩ :=
    (execResult_of_exec h).frame
  refine ⟨hcfg, hprog, hprev, hforce, hdi, hai, hb, hslots, hreq, hdelta, hri, hsteps, fun a => ?_, hops, hans, hpend⟩
  rw [hDI, hAI, hDO, hAO]
  exact ⟨rfl, rfl, rfl, rfl⟩

end Sys2Proof.Machine
end

section
/-! PROOFS. The checks of spec/60_exceptions.md R251 in the decoder and the meanings, which agree with their table, and
what an error raised inside a rung leaves (R253, R255). -/

namespace Sys2Proof.Machine

open Sys2Proof

/-! ### The checks that are left for a word that decodes -/

/-- Whether a SET or RST attempts its write: `truth(ACC)` (R251 step 6). -/
def gateOpen (s : State) : Bool :=
  match s.eng.acc with
  | .empty => false
  | .val v => truth s.cfg.realEpsilon v

/-- Steps 4, 4J, 5 and 7 of R251 for the instruction of an opcode, a kind and an INDEX: the first that fails. -/
def dynamicFailure (s : State) (o : Opcode) (k : Kind) (x : Index) : Option ErrorKind :=
  match o with
  | .ld => if count s.cfg k ≤ x.toNat then some .badIndex else none
  | .and | .or | .andn | .orn =>
    if count s.cfg k ≤ x.toNat then some .badIndex else if s.eng.acc = .empty then some .badProg else none
  | .st =>
    if count s.cfg k ≤ x.toNat then some .badIndex else if s.eng.acc = .empty then some .badProg
    else if readOnly s.cfg k x.toNat then some .badOperand else none
  | .set | .rst =>
    if count s.cfg k ≤ x.toNat then some .badIndex else if s.eng.acc = .empty then some .badProg
    else if gateOpen s && readOnly s.cfg k x.toNat then some .badOperand else none
  | .jmp =>
    if s.rungLen ≤ x.toNat then some .badProg else if s.eng.acc = .empty then some .badProg else none

/-! ### The table of R251 -/

theorem firstFailing_cons (b : Bool) (e : ErrorKind) (l : List (Bool × ErrorKind)) :
    (((b, e) :: l).find? fun c => c.1).map (fun c => c.2) =
      if b then some e else (l.find? fun c => c.1).map fun c => c.2 := by
  cases b <;> rfl

theorem slotCount_number (c : Cfg) (k : Kind) : slotCount c k.number.toNat = count c k := by
  cases k <;> rfl

theorem readOnly_number (c : Cfg) (k : Kind) (i : Nat) :
    (decide (k.number.toNat = 6) && memRo c i || decide (k.number.toNat = 7) && realMemRo c i) = readOnly c k i := by
  cases k <;> simp [Kind.number, readOnly]

/-- Step 3: the opcode writes a slot, and no slot of this kind (30_encoding.md R83). -/
theorem coilCheck_iff (op kind : Nat) :
    (decide (5 ≤ op) && decide (op ≤ 7) && decide (kind ≤ 8)
      && !(decide (kind = 3) || decide (kind = 5) || decide (kind = 6) || decide (kind = 7)
        || decide (kind = 8) && decide (op ≠ 5))) = true ↔ op ≤ 7 ∧ kind ≤ 8 ∧ ¬ ValidPair op kind := by
  simp only [ValidPair, Bool.and_eq_true, Bool.not_eq_true', Bool.or_eq_false_iff, Bool.and_eq_false_iff,
    decide_eq_true_eq, decide_eq_false_iff_not]
  omega

section
variable {w : Word}

/-- Steps 1, 2, 2J and 3 of the table are the static verdicts of the decoder. -/
theorem firstFailure_of_verdict {e : ErrorKind} (h : decodeWord w = .error e) (s : State) :
    firstFailure w s = some e := by
  simp only [firstFailure, checkList, ← opField_toNat, ← kindField_toNat, firstFailing_cons, coilCheck_iff]
  rcases (by omega : 9 ≤ (opField w).toNat ∨ (opField w).toNat = 8 ∨ (opField w).toNat ≤ 7) with hop | hop | hop
  · cases (decodeWord_of_reserved_opcode (opcodeOf_eq_none_iff.2 hop)).symm.trans h
    simp [hop]
  · rw [decodeWord_of_op_eight hop] at h
    split at h
    · cases h
    · rename_i hkind
      have hkind : (kindField w).toNat ≠ 0 := fun hzero => hkind (BitVec.eq_of_toNat_eq hzero)
      cases h
      simp [hop, hkind]
  · have hnot : ¬ 9 ≤ (opField w).toNat ∧ (opField w).toNat ≠ 8 := by omega
    by_cases hkind : 9 ≤ (kindField w).toNat
    · cases (decodeWord_of_reserved_kind_number hop hkind).symm.trans h
      simp [hnot, hop, hkind]
    · have hle : (kindField w).toNat ≤ 8 := by omega
      by_cases hpair : ValidPair (opField w).toNat (kindField w).toNat
      · obtain ⟨i, -, hi, -⟩ := decodeWord_of_validPair hop hle hpair
        cases hi.symm.trans h
      · cases (decodeWord_of_not_validPair hop hle hpair).symm.trans h
        simp only [hnot, hop, hkind, hle, hpair]
        simp

/-- Where OP and KIND go together, steps 4 to 7 of the table are left. -/
theorem firstFailure_of_fields {o : Opcode} {k : Kind} {x : Index} (ho : opField w = o.number)
    (hk : kindField w = k.number) (hx : indexField w = x) (hpair : (instrOf o k x).isSome = true) (s : State) :
    firstFailure w s = dynamicFailure s o k x := by
  have hop : w.toNat / 2 ^ 28 = o.number.toNat := by rw [← opField_toNat, ho]
  have hkind : w.toNat / 2 ^ 24 % 16 = k.number.toNat := by rw [← kindField_toNat, hk]
  have hindex : w.toNat % 2 ^ 24 = x.toNat := by rw [← indexField_toNat, hx]
  have hreserved : ¬ 9 ≤ k.number.toNat := by cases k <;> decide
  simp only [firstFailure, checkList, hop, hkind, hindex, firstFailing_cons, slotCount_number, readOnly_number,
    coilCheck_iff]
  by_cases hj : o = .jmp
  · subst hj
    obtain rfl : k = .di := by simpa [instrOf] using hpair
    simp [Opcode.number, Kind.number, dynamicFailure]
  · have hvalid := (instrOf_isSome_iff k x hj).1 hpair
    simp only [hvalid, not_true, and_false, if_false]
    cases o with
    | jmp => exact absurd rfl hj
    | ld | and | or | andn | orn => simp [Opcode.number, hreserved, dynamicFailure]
    | st => cases hacc : s.eng.acc <;> simp [Opcode.number, hreserved, dynamicFailure, hacc]
    | set | rst => cases hacc : s.eng.acc <;> simp [Opcode.number, hreserved, dynamicFailure, gateOpen, hacc]

end

theorem firstFailure_of_instr {w : Word} {i : Instr} (h : decodeWord w = .ok i) (s : State) :
    firstFailure w s = dynamicFailure s i.opcode i.kind i.index := by
  obtain ⟨o, k, ho, hk, hi⟩ := decodeWord_eq_ok_iff.1 h
  obtain ⟨rfl, rfl, hx⟩ := fields_of_instrOf hi
  exact firstFailure_of_fields (opcodeOf_eq_some_iff.1 ho) (kindOf_eq_some_iff.1 hk) hx.symm
    (Option.isSome_iff_exists.2 ⟨i, hx ▸ hi⟩) s

/-! ### The checks of the meanings -/

/-- What R251 asks of an instruction, of word `w`, whose first failing check is given: the abort with its error, or a
next state inside the same rung with the controller registers as they were. -/
inductive Checked (w : Word) (s : State) : Option ErrorKind → State → Prop
  | raised (e : ErrorKind) (he : raisable e = true) : Checked w s (some e) (s.raise e w)
  | completed {t : State} (hctl : t.ctl = s.ctl) (hphase : t.phase = s.phase) (hri : t.eng.ri = s.eng.ri) :
    Checked w s none t

section
variable {k : Kind} {x : Index} {w : Word} {s : State}

theorem loadOp_checked : Checked w s (dynamicFailure s .ld k x) (loadOp k x w s) := by
  rcases loadOp_cases k x w s with ⟨hx, h⟩ | ⟨hx, h⟩ <;> rw [h, dynamicFailure]
  · rw [if_pos hx]; exact .raised _ rfl
  · rw [if_neg hx.not_ge]; exact .completed rfl rfl rfl

theorem combineOp_checked {f : Bool → Bool → Bool} :
    Checked w s (dynamicFailure s .and k x) (combineOp f k x w s) := by
  rcases combineOp_cases f k x w s with ⟨hx, h⟩ | ⟨hx, hacc, h⟩ | ⟨hx, a, hacc, h⟩ <;> rw [h, dynamicFailure]
  · rw [if_pos hx]; exact .raised _ rfl
  · rw [if_neg hx.not_ge, if_pos hacc]; exact .raised _ rfl
  · rw [if_neg hx.not_ge, if_neg (by simp [hacc])]; exact .completed rfl rfl rfl

theorem storeOp_checked {wr : Value → Bank → Bank} :
    Checked w s (dynamicFailure s .st k x) (storeOp k x wr w s) := by
  rcases storeOp_cases k x wr w s with ⟨hx, h⟩ | ⟨hx, hacc, h⟩ | ⟨hx, ⟨v, hacc⟩, hro, h⟩ | ⟨hx, hro, v, hacc, h⟩ <;>
    rw [h, dynamicFailure]
  · rw [if_pos hx]; exact .raised _ rfl
  · rw [if_neg hx.not_ge, if_pos hacc]; exact .raised _ rfl
  · rw [if_neg hx.not_ge, if_neg (by simp [hacc]), if_pos hro]; exact .raised _ rfl
  · rw [if_neg hx.not_ge, if_neg (by simp [hacc]), if_neg (by simp [hro])]; exact .completed rfl rfl rfl

theorem setOp_checked {wr : Bank → Bank} : Checked w s (dynamicFailure s .set k x) (setOp k x wr w s) := by
  rcases setOp_cases k x wr w s with ⟨hx, h⟩ | ⟨hx, hacc, h⟩ | ⟨hx, ⟨v, hacc, hgate⟩, h⟩ | ⟨hx, ⟨v, hacc, hgate⟩, hro, h⟩
    | ⟨hx, ⟨v, hacc, hgate⟩, hro, h⟩ <;> rw [h, dynamicFailure]
  · rw [if_pos hx]; exact .raised _ rfl
  · rw [if_neg hx.not_ge, if_pos hacc]; exact .raised _ rfl
  · rw [if_neg hx.not_ge, if_neg (by simp [hacc]), if_neg (by simp [gateOpen, hacc, hgate])]
    exact .completed rfl rfl rfl
  · rw [if_neg hx.not_ge, if_neg (by simp [hacc]), if_pos (by simp [gateOpen, hacc, hgate, hro])]; exact .raised _ rfl
  · rw [if_neg hx.not_ge, if_neg (by simp [hacc]), if_neg (by simp [hro])]; exact .completed rfl rfl rfl

theorem jumpOp_checked : Checked w s (dynamicFailure s .jmp k x) (jumpOp x w s) := by
  rcases jumpOp_cases x w s with ⟨hx, h⟩ | ⟨hx, hacc, h⟩ | ⟨hx, ⟨v, hacc, -⟩, h⟩ | ⟨hx, ⟨v, hacc, -⟩, h⟩ <;>
    rw [h, dynamicFailure]
  · rw [if_pos hx]; exact .raised _ rfl
  · rw [if_neg hx.not_ge, if_pos hacc]; exact .raised _ rfl
  · rw [if_neg hx.not_ge, if_neg (by simp [hacc])]; exact .completed rfl rfl rfl
  · rw [if_neg hx.not_ge, if_neg (by simp [hacc])]; exact .completed rfl rfl rfl

end

theorem exec_checked (i : Instr) (s : State) :
    ∃ t, exec i s = .next t ∧ Checked (encode i) s (dynamicFailure s i.opcode i.kind i.index) t := by
  cases i with
  | ldDi x | ldRe x | ldFe x | ldDo x | ldAi x | ldAo x | ldM x | ldMr x | ldT x => exact ⟨_, rfl, loadOp_checked⟩
  | andDi x | andRe x | andFe x | andDo x | andAi x | andAo x | andM x | andMr x | andT x
  | orDi x | orRe x | orFe x | orDo x | orAi x | orAo x | orM x | orMr x | orT x
  | andnDi x | andnRe x | andnFe x | andnDo x | andnAi x | andnAo x | andnM x | andnMr x | andnT x
  | ornDi x | ornRe x | ornFe x | ornDo x | ornAi x | ornAo x | ornM x | ornMr x | ornT x =>
    exact ⟨_, rfl, combineOp_checked⟩
  | stDo x | stAo x | stM x | stMr x => exact ⟨_, rfl, storeOp_checked⟩
  | setDo x | setAo x | setM x | setMr x | setT x | rstDo x | rstAo x | rstM x | rstMr x | rstT x =>
    exact ⟨_, rfl, setOp_checked⟩
  | jmp x => exact ⟨_, rfl, jumpOp_checked⟩

/-! ### The run of a word below the step limit -/

theorem firstFailure_countStep (w : Word) (s : State) : firstFailure w (countStep s) = firstFailure w s := by
  rw [countStep_eq]
  rfl

/-- Below the step limit a word runs as R251 asks, by the decoder's checks and then those of its instruction. -/
theorem runWord_checked (w : Word) {s : State} (hlim : limitReached s = false) :
    ∃ t, runWord w s = .next t ∧ Checked w (countStep s) (firstFailure w s) t
      ∧ ∀ i, decodeWord w = .ok i → exec i (countStep s) = .next t := by
  cases hd : decodeWord w with
  | error e =>
    refine ⟨_, runWord_of_verdict hlim hd, ?_, nofun⟩
    rw [firstFailure_of_verdict hd]
    exact .raised e (decodeWord_error_raisable hd)
  | ok i =>
    obtain ⟨t, hexec, hchecked⟩ := exec_checked i (countStep s)
    rw [encodeOfDecodeReturnsTheWord w i hd, ← firstFailure_of_instr hd, firstFailure_countStep] at hchecked
    refine ⟨t, (runWord_of_instr hlim hd).trans hexec, hchecked, ?_⟩
    rintro _ ⟨⟩
    exact hexec

/-- Settles O31: the run of a word is the abort with the first failing check's error, or none fails, so the word
decodes and its instruction completes. -/
theorem checksAreMadeInTheSpecsOrder : Obligations.ChecksAreMadeInTheSpecsOrder := by
  unfold Obligations.ChecksAreMadeInTheSpecsOrder
  intro w s hlim
  obtain ⟨t, hrun, hchecked, hexec⟩ := runWord_checked w hlim
  refine ⟨fun e he => ?_, fun hnone => ?_⟩
  · rw [he] at hchecked
    cases hchecked
    exact hrun
  · cases hd : decodeWord w with
    | error e => cases (firstFailure_of_verdict hd s).symm.trans hnone
    | ok i =>
      rw [hnone] at hchecked
      cases hchecked with
      | completed hctl hphase hri =>
        exact ⟨i, t, rfl, hexec i hd, hrun, hctl.trans (countStep_ctl s), hphase.trans (countStep_phase s),
          hri.trans (countStep_ri s)⟩

/-! ### What an error leaves -/

/-- A word that leaves the rung raises an error, before or after the step is counted. -/
theorem runWord_leaves_rung {w : Word} {s t : State} (hrun : runWord w s = .next t) (hphase : t.phase ≠ s.phase) :
    ∃ e, raisable e = true ∧ (t = s.raise e w ∨ t = (countStep s).raise e w) := by
  cases hlim : limitReached s with
  | true =>
    cases (runWord_of_limitReached w hlim).symm.trans hrun
    exact ⟨.badProg, rfl, .inl rfl⟩
  | false =>
    obtain ⟨u, hu, hchecked, -⟩ := runWord_checked w hlim
    cases hu.symm.trans hrun
    cases hfail : firstFailure w s with
    | none =>
      rw [hfail] at hchecked
      cases hchecked with
      | completed _ hp _ => exact absurd (hp.trans (countStep_phase s)) hphase
    | some e =>
      rw [hfail] at hchecked
      cases hchecked with
      | raised _ he => exact ⟨e, he, .inr rfl⟩

/-- Settles O32: the end of a rung leads to the loop head, so the step ran a word and left the rung by an abort. -/
theorem errorsArePreciseAndLatched : Obligations.ErrorsArePreciseAndLatched := by
  unfold Obligations.ErrorsArePreciseAndLatched
  intro s t hphase hstep htick
  simp only [step, hphase, stepRung] at hstep
  cases hfetch : fetch s with
  | complete =>
    rw [hfetch] at hstep
    cases hstep
    cases htick
  | fault f =>
    rw [hfetch] at hstep
    cases hstep
  | word w =>
    rw [hfetch] at hstep
    obtain ⟨e, he, rfl | rfl⟩ := runWord_leaves_rung hstep (by simp [hphase, htick])
    · exact ⟨e, w, he, rfl, rfl⟩
    · exact ⟨e, w, he, rfl, by rw [countStep_eq]; rfl⟩

end Sys2Proof.Machine
end
